-- ==== Sys2Proof/Word.lean ====
section
/-! DEFINITION. The plain data the block is made of: bytes, microseconds, line identifiers, levels, drive modes, and
the two enumerations of states (spec/10_state.md R11, R12, R23). -/

namespace Sys2Proof

/-- One byte: the payload of a frame, the shift register, the receive byte, a report byte. -/
abbrev Byte := BitVec 8

/-- A value of the microsecond counter or a timestamp: `W_T` = 32 bits, unsigned, modulo 2^32 (R47, R5). -/
abbrev Micros := BitVec 32

/-- A name for a GPIO line. Which numbers are identifiers is the platform's (R41; `Config.isLine`). DESIGN CHOICE, log
entry 4. -/
abbrev LineId := Nat

/-- What `clock_line` and `data_line` hold: a `LineId`, or `none` for `NONE`, which is no `LineId` (R20, R41). -/
abbrev LineRef := Option LineId

/-- A line level (R6). -/
inductive Level where
  | low
  | high
deriving DecidableEq, Repr

/-- The drive mode of a line the engine has bound (R21): released to its pull-up, or driven low. Never driven high. -/
inductive DriveMode where
  | released
  | assertedLow
deriving DecidableEq, Repr

/-- The kind of operation the last request asked for (R14). -/
inductive OpKind where
  | write
  | read
deriving DecidableEq, Repr

/-- The engine's state tag `bstate` (R12): 23 values, one per wait. -/
inductive BusState where
  | bUninit | bIdle
  | wSettle | wInhibit | wStart | wDevClk | wBitRise | wBitFall | wParRise | wParFall
  | wStopDelay | wStopClkLow | wStopBothHigh
  | rFreeDelay | rStartLow | rStartSettle | rStartRise | rBitLow | rBitHigh
  | rParLow | rParHigh | rStopLow | rStopHigh
deriving DecidableEq, Repr

/-- The driver's state tag `dstate` (R23): 23 values, one per wait. -/
inductive DrvState where
  | dUninit | dAttachSettle
  | dResetCmd | dResetAck | dResetB1 | dResetB2
  | dRemoteCmd | dRemoteAck
  | dRateCmd | dRateCmdAck | dRateVal | dRateValAck
  | dResCmd | dResCmdAck | dResVal | dResValAck
  | dInitSettle
  | dPollCmd | dPollAck | dPollStatus | dPollX | dPollY | dPollWait
deriving DecidableEq, Repr

end Sys2Proof
end

