-- ==== Sys2Proof/Config.lean ====
section
/-! DEFINITION. What a platform fixes: the set `LineId` and the predicate `line_valid`, which the spec leaves OPEN, the
second with a default (spec/00_scope.md R5, spec/92_eei_decisions.md D12), and the power-on polling interval (D21). -/

namespace Sys2Proof

/-- The set `LineId` (R5, R41: OPEN, the platform's): which numbers name a line. Nothing is known of it. Log
entry 4. -/
opaque Config.isLine : LineId → Bool

/-- `line_valid(c, d)` on two identifiers (R5, R101: OPEN, the platform's). Nothing is known of it. Log entry 5. -/
opaque Config.lineValid : LineId → LineId → Bool

/-- Which `line_valid(c, d)` the machine is given (R5, R101, spec/93_implementation_defined.md U3: a parameter).
`ofPlatform` leaves the set of lines and the predicate open; `standard` is the default the spec states; `only` lists
the ordered pairs that a platform with finitely many pins can bind, whichever they are. Log entry 5. -/
inductive LineRule where
  | ofPlatform
  | standard
  | only (pairs : List (LineId × LineId))
deriving DecidableEq, Repr

/-- `POLL_INTERVAL` (R5, R28): 1000 µs, the value `poll_interval` holds from power-on. -/
def pollIntervalPowerOn : Micros := 1000#32

end Sys2Proof
end

