-- ==== Sys2Proof/Syntax.lean ====
section
/-! DEFINITION. The instruction type, one constructor per row of spec/opcode_table.json, and the form in which an
invocation reaches the block: a code on one of the eight formats' ports and the operand ports beside it
(spec/30_encoding.md R60 to R73). -/

namespace Sys2Proof

/-- The eight formats of R60: eight separate code spaces. -/
inductive Format where
  | engOp | drvOp | busState | drvState | cmdByte | frameH2D | frameD2H | report
deriving DecidableEq, Repr

/-- An invocation as the ports carry it (R73): the strobed format, its code, right aligned in whole bytes, and the
operand ports `line_c`, `line_d`, `wbyte`, and for a report its second and third bytes. A port that the operation
does not name is not looked at. Log entry 3. -/
structure CodeWord where
  format : Format
  code : BitVec 16
  lineC : LineRef
  lineD : LineRef
  wbyte : Byte
  xbyte : Byte
  ybyte : Byte
deriving DecidableEq, Repr

/-- The instructions: one constructor per row of spec/opcode_table.json. -/
inductive Instr where
  -- Bus Engine operations (R61): the 3-bit code of the `eng_op` port, operands on their own ports.
  | assign (c d : LineRef)
  | reqw (b : Byte)
  | reqr
  | isBusy
  | take
  | step
  | engReserved (low : BitVec 1)
  -- Device Driver operations (R62): the 2-bit code of the `drv_op` port.
  | attach (c d : LineRef)
  | advance
  | position
  | drvReserved
  -- Engine transitions (R63, R12): the 5-bit code of `bstate` is the whole opcode of a transition of `step()`.
  | bUninit
  | bIdle
  | wSettle
  | wInhibit
  | wStart
  | wDevClk
  | wBitRise
  | wBitFall
  | wParRise
  | wParFall
  | wStopDelay
  | wStopClkLow
  | wStopBothHigh
  | rFreeDelay
  | rStartLow
  | rStartSettle
  | rStartRise
  | rBitLow
  | rBitHigh
  | rParLow
  | rParHigh
  | rStopLow
  | rStopHigh
  | busStateReserved23
  | busStateReserved24to31 (low : BitVec 3)
  -- Driver transitions (R63, R23): the 5-bit code of `dstate` selects a transition of the driver half of `advance()`.
  | dUninit
  | dAttachSettle
  | dResetCmd
  | dResetAck
  | dResetB1
  | dResetB2
  | dRemoteCmd
  | dRemoteAck
  | dRateCmd
  | dRateCmdAck
  | dRateVal
  | dRateValAck
  | dResCmd
  | dResCmdAck
  | dResVal
  | dResValAck
  | dInitSettle
  | dPollCmd
  | dPollAck
  | dPollStatus
  | dPollX
  | dPollY
  | dPollWait
  | drvStateReserved23
  | drvStateReserved24to31 (low : BitVec 3)
  -- Command and argument bytes the driver writes (R68).
  | cmdReset
  | cmdRemoteMode
  | cmdSetRate
  | argRate200
  | cmdSetResolution
  | argResolution3
  | cmdRequestData
  -- One byte from the block to the device (R66): data byte and parity cell; start 0 and stop 1 are fixed.
  | frameH2D (b : Byte) (p : Bool)
  -- One byte from the device to the block (R67): eleven cells, none matched.
  | frameD2H (start : Bool) (b : Byte) (p stop : Bool)
  -- The three-byte report (R70): status byte, then the X byte, then the Y byte.
  | reportStatus (status rawx rawy : Byte)
deriving DecidableEq, Repr

end Sys2Proof
end

