-- ==== Sys2Proof/WellFormed.lean ====
section
/-! DEFINITION. Which instructions are well formed: a frame sent by the block carries the exclusive or of its data
bits in the parity cell (spec/40_timing_parity.md R94, spec/30_encoding.md R66), and no reserved code is an operation
or a state (R64). -/

namespace Sys2Proof

/-- The parity bit of a byte: the exclusive or of its eight bits, not inverted (R94, spec/90_conflicts.md C1). -/
def parityOfByte (b : Byte) : Bool :=
  b.getLsbD 0 ^^ b.getLsbD 1 ^^ b.getLsbD 2 ^^ b.getLsbD 3 ^^
    b.getLsbD 4 ^^ b.getLsbD 5 ^^ b.getLsbD 6 ^^ b.getLsbD 7

/-- The checks on an instruction. -/
def Instr.wellFormed (i : Instr) : Bool :=
  match i with
  | .frameH2D b p => p == parityOfByte b
  | .engReserved _ | .drvReserved | .busStateReserved23 | .busStateReserved24to31 _ | .drvStateReserved23
  | .drvStateReserved24to31 _ => false
  | .assign _ _ | .reqw _ | .reqr | .isBusy | .take | .step | .attach _ _ | .advance | .position | .bUninit
  | .bIdle | .wSettle | .wInhibit | .wStart | .wDevClk | .wBitRise | .wBitFall | .wParRise | .wParFall
  | .wStopDelay | .wStopClkLow | .wStopBothHigh | .rFreeDelay | .rStartLow | .rStartSettle | .rStartRise
  | .rBitLow | .rBitHigh | .rParLow | .rParHigh | .rStopLow | .rStopHigh | .dUninit | .dAttachSettle
  | .dResetCmd | .dResetAck | .dResetB1 | .dResetB2 | .dRemoteCmd | .dRemoteAck | .dRateCmd | .dRateCmdAck
  | .dRateVal | .dRateValAck | .dResCmd | .dResCmdAck | .dResVal | .dResValAck | .dInitSettle | .dPollCmd
  | .dPollAck | .dPollStatus | .dPollX | .dPollY | .dPollWait | .cmdReset | .cmdRemoteMode | .cmdSetRate
  | .argRate200 | .cmdSetResolution | .argResolution3 | .cmdRequestData | .frameD2H _ _ _ _
  | .reportStatus _ _ _ => true

end Sys2Proof
end

