-- ==== Sys2Proof/Decode.lean ====
section
/-! DEFINITION. The decoder, total on any code word and rejecting by name; the codes of the state tags and of the
1-bit kinds (spec/30_encoding.md R61 to R70, spec/10_state.md R12, R14, R21, R23); the encoder, written from the same
tables; and the reading of a bare table word. -/

namespace Sys2Proof

/-- Why a code word is no instruction. -/
inductive DecodeError where
  /-- The code does not fit the width of its format (R60). -/
  | codeTooWide
  /-- The byte is none of the seven the driver writes: "The driver writes no other value" (R68). -/
  | noCommandByte
  /-- Cell 0 of a frame sent by the block is the start bit 0 (R66). -/
  | startCellNotZero
  /-- Cell 10 of a frame sent by the block is the stop bit 1 (R66). -/
  | stopCellNotOne
deriving DecidableEq, Repr

/-- The width in bits of a format's code (R60); a report's code is its first byte. -/
def formatWidth (f : Format) : Nat :=
  match f with
  | .engOp => 3
  | .drvOp => 2
  | .busState => 5
  | .drvState => 5
  | .cmdByte => 8
  | .frameH2D => 11
  | .frameD2H => 11
  | .report => 8

/-- Decode the `ENG_OP` format (R61, R64). -/
def decodeEngOp (w : CodeWord) : Except DecodeError Instr :=
  match w.code.toNat with
  | 0 => .ok (.assign w.lineC w.lineD)
  | 1 => .ok (.reqw w.wbyte)
  | 2 => .ok .reqr
  | 3 => .ok .isBusy
  | 4 => .ok .take
  | 5 => .ok .step
  | 6 => .ok (.engReserved 0#1)
  | 7 => .ok (.engReserved 1#1)
  | _ => .error .codeTooWide

/-- Decode the `DRV_OP` format (R62, R64). -/
def decodeDrvOp (w : CodeWord) : Except DecodeError Instr :=
  match w.code.toNat with
  | 0 => .ok (.attach w.lineC w.lineD)
  | 1 => .ok .advance
  | 2 => .ok .position
  | 3 => .ok .drvReserved
  | _ => .error .codeTooWide

/-- Decode the `BUS_STATE` format (R63, R12, R64). -/
def decodeBusState (w : CodeWord) : Except DecodeError Instr :=
  match w.code.toNat with
  | 0 => .ok .bUninit
  | 1 => .ok .bIdle
  | 2 => .ok .wSettle
  | 3 => .ok .wInhibit
  | 4 => .ok .wStart
  | 5 => .ok .wDevClk
  | 6 => .ok .wBitRise
  | 7 => .ok .wBitFall
  | 8 => .ok .wParRise
  | 9 => .ok .wParFall
  | 10 => .ok .wStopDelay
  | 11 => .ok .wStopClkLow
  | 12 => .ok .wStopBothHigh
  | 13 => .ok .rFreeDelay
  | 14 => .ok .rStartLow
  | 15 => .ok .rStartSettle
  | 16 => .ok .rStartRise
  | 17 => .ok .rBitLow
  | 18 => .ok .rBitHigh
  | 19 => .ok .rParLow
  | 20 => .ok .rParHigh
  | 21 => .ok .rStopLow
  | 22 => .ok .rStopHigh
  | 23 => .ok .busStateReserved23
  | 24 => .ok (.busStateReserved24to31 0#3)
  | 25 => .ok (.busStateReserved24to31 1#3)
  | 26 => .ok (.busStateReserved24to31 2#3)
  | 27 => .ok (.busStateReserved24to31 3#3)
  | 28 => .ok (.busStateReserved24to31 4#3)
  | 29 => .ok (.busStateReserved24to31 5#3)
  | 30 => .ok (.busStateReserved24to31 6#3)
  | 31 => .ok (.busStateReserved24to31 7#3)
  | _ => .error .codeTooWide

/-- Decode the `DRV_STATE` format (R63, R23, R64). -/
def decodeDrvState (w : CodeWord) : Except DecodeError Instr :=
  match w.code.toNat with
  | 0 => .ok .dUninit
  | 1 => .ok .dAttachSettle
  | 2 => .ok .dResetCmd
  | 3 => .ok .dResetAck
  | 4 => .ok .dResetB1
  | 5 => .ok .dResetB2
  | 6 => .ok .dRemoteCmd
  | 7 => .ok .dRemoteAck
  | 8 => .ok .dRateCmd
  | 9 => .ok .dRateCmdAck
  | 10 => .ok .dRateVal
  | 11 => .ok .dRateValAck
  | 12 => .ok .dResCmd
  | 13 => .ok .dResCmdAck
  | 14 => .ok .dResVal
  | 15 => .ok .dResValAck
  | 16 => .ok .dInitSettle
  | 17 => .ok .dPollCmd
  | 18 => .ok .dPollAck
  | 19 => .ok .dPollStatus
  | 20 => .ok .dPollX
  | 21 => .ok .dPollY
  | 22 => .ok .dPollWait
  | 23 => .ok .drvStateReserved23
  | 24 => .ok (.drvStateReserved24to31 0#3)
  | 25 => .ok (.drvStateReserved24to31 1#3)
  | 26 => .ok (.drvStateReserved24to31 2#3)
  | 27 => .ok (.drvStateReserved24to31 3#3)
  | 28 => .ok (.drvStateReserved24to31 4#3)
  | 29 => .ok (.drvStateReserved24to31 5#3)
  | 30 => .ok (.drvStateReserved24to31 6#3)
  | 31 => .ok (.drvStateReserved24to31 7#3)
  | _ => .error .codeTooWide

/-- Decode the `CMD_BYTE` format (R68). -/
def decodeCmdByte (w : CodeWord) : Except DecodeError Instr :=
  match w.code.toNat with
  | 255 => .ok .cmdReset
  | 240 => .ok .cmdRemoteMode
  | 243 => .ok .cmdSetRate
  | 200 => .ok .argRate200
  | 232 => .ok .cmdSetResolution
  | 3 => .ok .argResolution3
  | 235 => .ok .cmdRequestData
  | _ => .error .noCommandByte

/-- Decode the eleven cells of `FRAME_H2D`, first cell in bit 0 (R66): `0 d0 .. d7 p 1`. -/
def decodeFrameH2D (w : CodeWord) : Except DecodeError Instr :=
  if w.code.toNat ≥ 2048 then .error .codeTooWide
  else if w.code.getLsbD 0 then .error .startCellNotZero
  else if !w.code.getLsbD 10 then .error .stopCellNotOne
  else .ok (.frameH2D (w.code.extractLsb' 1 8) (w.code.getLsbD 9))

/-- Decode the eleven cells of `FRAME_D2H`, first cell in bit 0 (R67): `x d0 .. d7 x x`, no cell matched. -/
def decodeFrameD2H (w : CodeWord) : Except DecodeError Instr :=
  if w.code.toNat ≥ 2048 then .error .codeTooWide
  else .ok (.frameD2H (w.code.getLsbD 0) (w.code.extractLsb' 1 8) (w.code.getLsbD 9) (w.code.getLsbD 10))

/-- Decode a report: the status byte is the code, the X and Y bytes follow it (R70). -/
def decodeReport (w : CodeWord) : Except DecodeError Instr :=
  if w.code.toNat ≥ 256 then .error .codeTooWide
  else .ok (.reportStatus (w.code.extractLsb' 0 8) w.xbyte w.ybyte)

/-- The decoder: the strobed format chooses the code space (R60), the code the row. -/
def decode (w : CodeWord) : Except DecodeError Instr :=
  match w.format with
  | .engOp => decodeEngOp w
  | .drvOp => decodeDrvOp w
  | .busState => decodeBusState w
  | .drvState => decodeDrvState w
  | .cmdByte => decodeCmdByte w
  | .frameH2D => decodeFrameH2D w
  | .frameD2H => decodeFrameD2H w
  | .report => decodeReport w

/-- A code word with every operand port at zero: no line, byte 0. -/
def plainWord (f : Format) (code : BitVec 16) : CodeWord :=
  { format := f, code := code, lineC := none, lineD := none, wbyte := 0#8, xbyte := 0#8, ybyte := 0#8 }

/-- The encoder: the code word of an instruction, from the tables of R61 to R70. -/
def encode (i : Instr) : CodeWord :=
  match i with
  | .assign c d => { plainWord .engOp 0#16 with lineC := c, lineD := d }
  | .reqw b => { plainWord .engOp 1#16 with wbyte := b }
  | .reqr => plainWord .engOp 2#16
  | .isBusy => plainWord .engOp 3#16
  | .take => plainWord .engOp 4#16
  | .step => plainWord .engOp 5#16
  | .engReserved low => plainWord .engOp (3#15 ++ low)
  | .attach c d => { plainWord .drvOp 0#16 with lineC := c, lineD := d }
  | .advance => plainWord .drvOp 1#16
  | .position => plainWord .drvOp 2#16
  | .drvReserved => plainWord .drvOp 3#16
  | .bUninit => plainWord .busState 0#16
  | .bIdle => plainWord .busState 1#16
  | .wSettle => plainWord .busState 2#16
  | .wInhibit => plainWord .busState 3#16
  | .wStart => plainWord .busState 4#16
  | .wDevClk => plainWord .busState 5#16
  | .wBitRise => plainWord .busState 6#16
  | .wBitFall => plainWord .busState 7#16
  | .wParRise => plainWord .busState 8#16
  | .wParFall => plainWord .busState 9#16
  | .wStopDelay => plainWord .busState 10#16
  | .wStopClkLow => plainWord .busState 11#16
  | .wStopBothHigh => plainWord .busState 12#16
  | .rFreeDelay => plainWord .busState 13#16
  | .rStartLow => plainWord .busState 14#16
  | .rStartSettle => plainWord .busState 15#16
  | .rStartRise => plainWord .busState 16#16
  | .rBitLow => plainWord .busState 17#16
  | .rBitHigh => plainWord .busState 18#16
  | .rParLow => plainWord .busState 19#16
  | .rParHigh => plainWord .busState 20#16
  | .rStopLow => plainWord .busState 21#16
  | .rStopHigh => plainWord .busState 22#16
  | .busStateReserved23 => plainWord .busState 23#16
  | .busStateReserved24to31 low => plainWord .busState (3#13 ++ low)
  | .dUninit => plainWord .drvState 0#16
  | .dAttachSettle => plainWord .drvState 1#16
  | .dResetCmd => plainWord .drvState 2#16
  | .dResetAck => plainWord .drvState 3#16
  | .dResetB1 => plainWord .drvState 4#16
  | .dResetB2 => plainWord .drvState 5#16
  | .dRemoteCmd => plainWord .drvState 6#16
  | .dRemoteAck => plainWord .drvState 7#16
  | .dRateCmd => plainWord .drvState 8#16
  | .dRateCmdAck => plainWord .drvState 9#16
  | .dRateVal => plainWord .drvState 10#16
  | .dRateValAck => plainWord .drvState 11#16
  | .dResCmd => plainWord .drvState 12#16
  | .dResCmdAck => plainWord .drvState 13#16
  | .dResVal => plainWord .drvState 14#16
  | .dResValAck => plainWord .drvState 15#16
  | .dInitSettle => plainWord .drvState 16#16
  | .dPollCmd => plainWord .drvState 17#16
  | .dPollAck => plainWord .drvState 18#16
  | .dPollStatus => plainWord .drvState 19#16
  | .dPollX => plainWord .drvState 20#16
  | .dPollY => plainWord .drvState 21#16
  | .dPollWait => plainWord .drvState 22#16
  | .drvStateReserved23 => plainWord .drvState 23#16
  | .drvStateReserved24to31 low => plainWord .drvState (3#13 ++ low)
  | .cmdReset => plainWord .cmdByte 255#16
  | .cmdRemoteMode => plainWord .cmdByte 240#16
  | .cmdSetRate => plainWord .cmdByte 243#16
  | .argRate200 => plainWord .cmdByte 200#16
  | .cmdSetResolution => plainWord .cmdByte 232#16
  | .argResolution3 => plainWord .cmdByte 3#16
  | .cmdRequestData => plainWord .cmdByte 235#16
  | .frameH2D b p => plainWord .frameH2D (1#6 ++ (BitVec.ofBool p ++ (b ++ 0#1)))
  | .frameD2H start b p stop =>
    plainWord .frameD2H (0#5 ++ (BitVec.ofBool stop ++ (BitVec.ofBool p ++ (b ++ BitVec.ofBool start))))
  | .reportStatus status rawx rawy =>
    { plainWord .report (0#8 ++ status) with xbyte := rawx, ybyte := rawy }

/-- The 5-bit code of `bstate` (R12, R63). -/
def BusState.code (q : BusState) : BitVec 5 :=
  match q with
  | .bUninit => 0#5
  | .bIdle => 1#5
  | .wSettle => 2#5
  | .wInhibit => 3#5
  | .wStart => 4#5
  | .wDevClk => 5#5
  | .wBitRise => 6#5
  | .wBitFall => 7#5
  | .wParRise => 8#5
  | .wParFall => 9#5
  | .wStopDelay => 10#5
  | .wStopClkLow => 11#5
  | .wStopBothHigh => 12#5
  | .rFreeDelay => 13#5
  | .rStartLow => 14#5
  | .rStartSettle => 15#5
  | .rStartRise => 16#5
  | .rBitLow => 17#5
  | .rBitHigh => 18#5
  | .rParLow => 19#5
  | .rParHigh => 20#5
  | .rStopLow => 21#5
  | .rStopHigh => 22#5

/-- The state a 5-bit code of `bstate` names (R12, R63); codes 23 to 31 are reserved (R64). -/
def BusState.ofCode (n : Nat) : Option BusState :=
  match n with
  | 0 => some .bUninit
  | 1 => some .bIdle
  | 2 => some .wSettle
  | 3 => some .wInhibit
  | 4 => some .wStart
  | 5 => some .wDevClk
  | 6 => some .wBitRise
  | 7 => some .wBitFall
  | 8 => some .wParRise
  | 9 => some .wParFall
  | 10 => some .wStopDelay
  | 11 => some .wStopClkLow
  | 12 => some .wStopBothHigh
  | 13 => some .rFreeDelay
  | 14 => some .rStartLow
  | 15 => some .rStartSettle
  | 16 => some .rStartRise
  | 17 => some .rBitLow
  | 18 => some .rBitHigh
  | 19 => some .rParLow
  | 20 => some .rParHigh
  | 21 => some .rStopLow
  | 22 => some .rStopHigh
  | _ => none

/-- The transition a value of `bstate` selects (R12, R63). -/
def BusState.transition (q : BusState) : Instr :=
  match q with
  | .bUninit => .bUninit
  | .bIdle => .bIdle
  | .wSettle => .wSettle
  | .wInhibit => .wInhibit
  | .wStart => .wStart
  | .wDevClk => .wDevClk
  | .wBitRise => .wBitRise
  | .wBitFall => .wBitFall
  | .wParRise => .wParRise
  | .wParFall => .wParFall
  | .wStopDelay => .wStopDelay
  | .wStopClkLow => .wStopClkLow
  | .wStopBothHigh => .wStopBothHigh
  | .rFreeDelay => .rFreeDelay
  | .rStartLow => .rStartLow
  | .rStartSettle => .rStartSettle
  | .rStartRise => .rStartRise
  | .rBitLow => .rBitLow
  | .rBitHigh => .rBitHigh
  | .rParLow => .rParLow
  | .rParHigh => .rParHigh
  | .rStopLow => .rStopLow
  | .rStopHigh => .rStopHigh

/-- The 5-bit code of `dstate` (R23, R63). -/
def DrvState.code (q : DrvState) : BitVec 5 :=
  match q with
  | .dUninit => 0#5
  | .dAttachSettle => 1#5
  | .dResetCmd => 2#5
  | .dResetAck => 3#5
  | .dResetB1 => 4#5
  | .dResetB2 => 5#5
  | .dRemoteCmd => 6#5
  | .dRemoteAck => 7#5
  | .dRateCmd => 8#5
  | .dRateCmdAck => 9#5
  | .dRateVal => 10#5
  | .dRateValAck => 11#5
  | .dResCmd => 12#5
  | .dResCmdAck => 13#5
  | .dResVal => 14#5
  | .dResValAck => 15#5
  | .dInitSettle => 16#5
  | .dPollCmd => 17#5
  | .dPollAck => 18#5
  | .dPollStatus => 19#5
  | .dPollX => 20#5
  | .dPollY => 21#5
  | .dPollWait => 22#5

/-- The state a 5-bit code of `dstate` names (R23, R63); codes 23 to 31 are reserved (R64). -/
def DrvState.ofCode (n : Nat) : Option DrvState :=
  match n with
  | 0 => some .dUninit
  | 1 => some .dAttachSettle
  | 2 => some .dResetCmd
  | 3 => some .dResetAck
  | 4 => some .dResetB1
  | 5 => some .dResetB2
  | 6 => some .dRemoteCmd
  | 7 => some .dRemoteAck
  | 8 => some .dRateCmd
  | 9 => some .dRateCmdAck
  | 10 => some .dRateVal
  | 11 => some .dRateValAck
  | 12 => some .dResCmd
  | 13 => some .dResCmdAck
  | 14 => some .dResVal
  | 15 => some .dResValAck
  | 16 => some .dInitSettle
  | 17 => some .dPollCmd
  | 18 => some .dPollAck
  | 19 => some .dPollStatus
  | 20 => some .dPollX
  | 21 => some .dPollY
  | 22 => some .dPollWait
  | _ => none

/-- The transition a value of `dstate` selects (R23, R63). -/
def DrvState.transition (q : DrvState) : Instr :=
  match q with
  | .dUninit => .dUninit
  | .dAttachSettle => .dAttachSettle
  | .dResetCmd => .dResetCmd
  | .dResetAck => .dResetAck
  | .dResetB1 => .dResetB1
  | .dResetB2 => .dResetB2
  | .dRemoteCmd => .dRemoteCmd
  | .dRemoteAck => .dRemoteAck
  | .dRateCmd => .dRateCmd
  | .dRateCmdAck => .dRateCmdAck
  | .dRateVal => .dRateVal
  | .dRateValAck => .dRateValAck
  | .dResCmd => .dResCmd
  | .dResCmdAck => .dResCmdAck
  | .dResVal => .dResVal
  | .dResValAck => .dResValAck
  | .dInitSettle => .dInitSettle
  | .dPollCmd => .dPollCmd
  | .dPollAck => .dPollAck
  | .dPollStatus => .dPollStatus
  | .dPollX => .dPollX
  | .dPollY => .dPollY
  | .dPollWait => .dPollWait

/-- The 1-bit code of `op` (R14): `WRITE` = 0, `READ` = 1. -/
def OpKind.code (k : OpKind) : BitVec 1 :=
  match k with
  | .write => 0#1
  | .read => 1#1

/-- The 1-bit code of a drive mode (R21): `RELEASED` = 0, `ASSERTED_LOW` = 1. -/
def DriveMode.code (m : DriveMode) : BitVec 1 :=
  match m with
  | .released => 0#1
  | .assertedLow => 1#1

/-- Whether a byte is one of the seven of R68. -/
def isCommandByte (w : Nat) : Bool :=
  w == 0xFF || w == 0xF0 || w == 0xF3 || w == 0xC8 || w == 0xE8 || w == 0x03 || w == 0xEB

/-- The format of a bare table word. The eight formats are separate code spaces whose codes overlap, and the word
alone does not say which port carries it: the first row of the table, in the table's order, that the word can be is
taken. Log entry 2. -/
def tableFormat (nbits w : Nat) : Format :=
  if nbits ≤ 8 then
    if w < 8 then .engOp
    else if w < 32 then .busState
    else if isCommandByte w then .cmdByte
    else .report
  else if w % 2 = 0 ∧ w / 1024 = 1 then .frameH2D
  else .frameD2H

/-- A bare table word on the ports: no identifier on a line port (`NONE`), zero on a byte port. Log entries 2 and 3. -/
def tableWord (nbits w : Nat) : CodeWord :=
  { format := tableFormat nbits w, code := BitVec.ofNat 16 w, lineC := none, lineD := none,
    wbyte := 0#8, xbyte := 0#8, ybyte := 0#8 }

/-- The instruction the decoder reads from a bare table word. -/
def decodeTableWord (nbits w : Nat) : Option Instr :=
  if w < 65536 then
    match decode (tableWord nbits w) with
    | .ok i => some i
    | .error _ => none
  else none

end Sys2Proof
end

