-- ==== Sys2Proof/Machine/State.lean ====
section
/-! DEFINITION. The state of the block (spec/10_state.md R11 to R29), of the two lines it drives (R21), and the
interface it is driven through: the invocations still to come, the inputs sampled for the present one, the value the
last one returned. The reasons a step can stop, and the state after power-on (R33, R240). -/

namespace Sys2Proof.Machine

/-- The registers of the Bus Engine (R11). -/
structure Engine where
  /-- `bstate`, the state tag (R12). -/
  bstate : BusState
  /-- `busy`, 1 bit: an operation is pending (R13). -/
  busy : Bool
  /-- `op`, 1 bit: the kind of the last request (R14). -/
  op : OpKind
  /-- `sh`, 8 bits: the shift register of a write (R15). -/
  sh : Byte
  /-- `cnt`, 3 bits: the bit counter (R16). -/
  cnt : BitVec 3
  /-- `par`, 1 bit: the running parity (R17). -/
  par : Bool
  /-- `rx`, 8 bits: the captured receive byte (R18). -/
  rx : Byte
  /-- `t`, 32 bits: the engine's timestamp (R19). -/
  t : Micros
  /-- `clock_line` (R20). -/
  clockLine : LineRef
  /-- `data_line` (R20). -/
  dataLine : LineRef
deriving DecidableEq, Repr

/-- The registers of the Device Driver (R23 to R29). -/
structure Driver where
  /-- `dstate`, the state tag (R23). -/
  dstate : DrvState
  /-- `status`, 8 bits: the first byte of the last report (R24). -/
  status : Byte
  /-- `rawx`, 8 bits (R25). -/
  rawx : Byte
  /-- `rawy`, 8 bits (R25). -/
  rawy : Byte
  /-- `posx`, an unbounded integer (R26). -/
  posx : Int
  /-- `posy`, an unbounded integer (R26). -/
  posy : Int
  /-- `ovf`, 1 bit: the overflow flag (R27). -/
  ovf : Bool
  /-- `poll_interval`, 32 bits (R28). -/
  pollInterval : Micros
  /-- `dt`, 32 bits: the driver's timestamp (R29). -/
  dt : Micros
deriving DecidableEq, Repr

/-- What the environment supplies to one invocation (R31, R46, R47): the counter, and whether the device pulls the
clock line and the data line low (R9, R72); for one line bound as both see `devicePulls` and log entry 28. -/
structure Sample where
  now : Micros
  devC : Bool
  devD : Bool
deriving DecidableEq, Repr

/-- One invocation by the caller (R9): the code word on the ports and the sample taken with it. -/
structure Call where
  word : CodeWord
  sample : Sample
deriving DecidableEq, Repr

/-- The value an operation returns (R61, R62: column "Result out"). -/
inductive Result where
  | none
  | bit (b : Bool)
  | byte (b : Byte)
  | pair (x y : Int)
deriving DecidableEq, Repr

/-- The machine. `eng`, `drv` and `modes` are the block's own state; `calls`, `env` and `result` are its interface
(log entries 1, 6 and 7); `platform` is the parameter `line_valid` (log entry 5), which nothing writes. -/
structure State where
  eng : Engine
  drv : Driver
  /-- `mode[line]` for every line the engine has bound (R21): a list with rising identifiers; a line that is not
  listed has no drive mode of the block's (log entry 17). -/
  modes : List (LineId × DriveMode)
  /-- The invocations the caller has still to make, the next one first. -/
  calls : List Call
  /-- The inputs sampled for the present invocation. -/
  env : Sample
  /-- The value the last invocation returned. -/
  result : Result
  platform : LineRule
deriving DecidableEq, Repr

/-- The block raises no exception, sets no error flag and has no fault state (R210): there is no fault. -/
inductive Fault where
deriving DecidableEq, Repr

/-- Why an invocation has no meaning. Each of them is safe: the model stops where the spec gives no effect. -/
inductive Refusal where
  /-- Raised by `exec` for an instruction without a meaning. No arm of this model uses it. Safe. -/
  | notModelled (mnemonic : String)
  /-- Raised by a request while `busy` = 1 (R107): the spec gives it no behaviour. Safe. -/
  | requestWhileBusy
  /-- Raised by an operation of the engine invoked from outside while the driver is attached
  (spec/93_implementation_defined.md U13, R253). Safe. -/
  | engineOwnedByDriver
  /-- Raised by `ENG_OP` codes 110 and 111 (R64). Safe. -/
  | reservedEngOp
  /-- Raised by `DRV_OP` code 11 (R64). Safe. -/
  | reservedDrvOp
  /-- Raised by the codes 23 to 31 of `bstate` (R64). Safe. -/
  | reservedBusState
  /-- Raised by the codes 23 to 31 of `dstate` (R64). Safe. -/
  | reservedDrvState
  /-- Raised by a frame of the block whose parity cell is not the exclusive or of its data bits (R66): the block sends
  no such frame. Safe. -/
  | frameParity
  /-- Raised by `step` for a code word that is no instruction (R60, R64, R66, R68). Safe. -/
  | undecodable (e : DecodeError)
deriving DecidableEq, Repr

/-- The engine's values after power-on (R33). -/
def Engine.powerOn : Engine :=
  { bstate := .bUninit, busy := false, op := .write, sh := 0x00#8, cnt := 0#3, par := false, rx := 0x00#8,
    t := 0#32, clockLine := none, dataLine := none }

/-- The driver's values after power-on (R33). -/
def Driver.powerOn : Driver :=
  { dstate := .dUninit, status := 0x00#8, rawx := 0x00#8, rawy := 0x00#8, posx := 0, posy := 0, ovf := false,
    pollInterval := pollIntervalPowerOn, dt := 0#32 }

/-- The machine right after power-on (R33, R240): both machines uninitialized, no line bound or touched, no invocation
made; `line_valid` is left open (R5). The interface fields hold the values of log entries 1, 5, 6 and 7. -/
def State.reset : State :=
  { eng := Engine.powerOn, drv := Driver.powerOn, modes := [], calls := [],
    env := { now := 0#32, devC := false, devD := false }, result := .none,
    platform := .ofPlatform }

end Sys2Proof.Machine
end

