-- ==== Sys2Proof/Machine/Flags.lean ====
section
/-! DEFINITION. Every flag the block computes: the parity generator (spec/40_timing_parity.md R94), the overflow flag
(spec/45_driver_poll.md R196), and the timing flag `elapsed` (R90). `busy` is only set and cleared (R13). -/

namespace Sys2Proof.Machine

/-- One step of the parity generator: the bit that is on the line is exclusive-ored into `par` (R94, R125). -/
def accumulateParity (par : Bool) (sh : Byte) : Bool :=
  par ^^ sh.getLsbD 0

/-- The overflow flag of a report: the or of bits 6 and 7 of the status byte (R196, R70). -/
def overflowOf (status : Byte) : Bool :=
  status.getLsbD 6 || status.getLsbD 7

/-- `elapsed(interval, since)` at counter value `now` (R90): the difference modulo 2^32 is strictly greater. -/
def elapsed (interval since now : Micros) : Bool :=
  decide (interval.toNat < (now - since).toNat)

end Sys2Proof.Machine
end

