-- ==== Sys2Proof/Machine/Operands.lean ====
section
/-! DEFINITION. The operands of the transition rules: the timed windows and the byte values of spec/00_scope.md R5,
the sampled line levels (spec/20_memory.md R44, R46), level and bit (R92, R93), the bit of `rx` a sample writes
(R144), and the signed deltas of a report (spec/30_encoding.md R71). -/

namespace Sys2Proof.Machine

/-- `T_W_SETTLE`, 300 µs (R5). -/
def tWriteSettle : Micros := 300#32

/-- `T_W_INHIBIT`, 300 µs (R5). -/
def tWriteInhibit : Micros := 300#32

/-- `T_W_START`, 10 µs (R5). -/
def tWriteStart : Micros := 10#32

/-- `T_W_STOP`, 50 µs (R5). -/
def tWriteStop : Micros := 50#32

/-- `T_R_FREE`, 50 µs (R5). -/
def tReadFree : Micros := 50#32

/-- `T_R_START`, 5 µs (R5). -/
def tReadStart : Micros := 5#32

/-- `T_D_ATTACH`, 100 µs (R5). -/
def tDriverAttach : Micros := 100#32

/-- `T_D_INIT`, 100 µs (R5). -/
def tDriverInit : Micros := 100#32

/-- `CMD_RESET` (R5, R68). -/
def byteReset : Byte := 0xFF#8

/-- `CMD_REMOTE` (R5, R68). -/
def byteRemoteMode : Byte := 0xF0#8

/-- `CMD_RATE` (R5, R68). -/
def byteSetRate : Byte := 0xF3#8

/-- `ARG_RATE`, 200 (R5, R68). -/
def byteRate200 : Byte := 0xC8#8

/-- `CMD_RES` (R5, R68). -/
def byteSetResolution : Byte := 0xE8#8

/-- `ARG_RES`, 3 (R5, R68). -/
def byteResolution3 : Byte := 0x03#8

/-- `CMD_DATA` (R5, R68). -/
def byteRequestData : Byte := 0xEB#8

/-- `mode[line]`, where the engine has ever bound the line (R21). -/
def modeOf (ms : List (LineId × DriveMode)) (l : LineId) : Option DriveMode :=
  match ms with
  | [] => none
  | (k, m) :: rest => if k = l then some m else modeOf rest l

/-- The drive mode of a bound line; none where no line is bound (R21). -/
def modeAt (ms : List (LineId × DriveMode)) (l : LineRef) : Option DriveMode :=
  match l with
  | none => none
  | some k => modeOf ms k

/-- `Level(line)`: the wired-AND of the block's drive and the device's pull (R44). -/
def levelOf (ms : List (LineId × DriveMode)) (l : LineRef) (pulled : Bool) : Level :=
  if modeAt ms l = some .assertedLow ∨ pulled = true then .low else .high

/-- Whether the device pulls the line low (R44). The sample says it of the clock line and of the data line (R9, R72);
where one line is bound as both, either pull is a pull of that line: DESIGN CHOICE, log entry 28. -/
def devicePulls (l : LineRef) (s : State) : Bool :=
  decide (l = s.eng.clockLine) && s.env.devC || decide (l = s.eng.dataLine) && s.env.devD

/-- `clk`: the clock level sampled for this invocation (R46, R108). -/
def clkLevel (s : State) : Level :=
  levelOf s.modes s.eng.clockLine (devicePulls s.eng.clockLine s)

/-- `dat`: the data level of the same sample (R46, R108). -/
def datLevel (s : State) : Level :=
  levelOf s.modes s.eng.dataLine (devicePulls s.eng.dataLine s)

/-- `bit(level)` (R93). -/
def bitOfLevel (l : Level) : Bool :=
  match l with
  | .high => true
  | .low => false

/-- The drive mode that puts a bit on the data line: a 1 is released, a 0 is driven low (R92). -/
def modeOfBit (v : Bool) : DriveMode :=
  if v then .released else .assertedLow

/-- `v[i] <- b`: only bit `i` changes (R144). -/
def setBitAt (v : Byte) (i : BitVec 3) (b : Bool) : Byte :=
  if b then v ||| (1#8 <<< i.toNat) else v &&& ~~~(1#8 <<< i.toNat)

/-- A signed delta: the raw byte less 256 where its sign bit is set (R71, R196). -/
def signedDelta (sign : Bool) (raw : Byte) : Int :=
  if sign then (raw.toNat : Int) - 256 else (raw.toNat : Int)

/-- The X delta of the report held in the driver: sign in bit 4 of `status` (R70, R196). -/
def deltaX (d : Driver) : Int :=
  signedDelta (d.status.getLsbD 4) d.rawx

/-- The Y delta: sign in bit 5 of `status` (R70, R196). -/
def deltaY (d : Driver) : Int :=
  signedDelta (d.status.getLsbD 5) d.rawy

end Sys2Proof.Machine
end

