-- ==== Sys2Proof/Machine/Ops.lean ====
section
/-! DEFINITION. The named operations over the state that every meaning is built from: one write per register (R8:
what is not written keeps its value), the line primitives `Release`, `AssertLow` and `DriveData`
(spec/20_memory.md R42, R43; R92), binding and requesting (spec/41_bus_engine_ops.md R100 to R107), the decode of a
report (R196), the form of a transition (R111), and taking an invocation from the caller. The block takes no exception
and returns from none (R210, R217, R218), so there is no operation for either. -/

namespace Sys2Proof.Machine

/-- What an invocation answers. -/
abbrev Answer := Host.Outcome State Fault Refusal

/-- Go on with `f` where `a` answers a next state. -/
def andThen (a : Answer) (f : State → Answer) : Answer :=
  match a with
  | .next s => f s
  | .fault r => .fault r
  | .refused r => .refused r

/-- `bstate <- q` (R12). -/
def setBstate (q : BusState) (s : State) : State := { s with eng := { s.eng with bstate := q } }

/-- `busy <- b` (R13). -/
def setBusy (b : Bool) (s : State) : State := { s with eng := { s.eng with busy := b } }

/-- `op <- k` (R14). -/
def setOp (k : OpKind) (s : State) : State := { s with eng := { s.eng with op := k } }

/-- `sh <- v` (R15). -/
def setSh (v : Byte) (s : State) : State := { s with eng := { s.eng with sh := v } }

/-- `cnt <- v` (R16). -/
def setCnt (v : BitVec 3) (s : State) : State := { s with eng := { s.eng with cnt := v } }

/-- `par <- v` (R17). -/
def setPar (v : Bool) (s : State) : State := { s with eng := { s.eng with par := v } }

/-- `rx <- v` (R18). -/
def setRx (v : Byte) (s : State) : State := { s with eng := { s.eng with rx := v } }

/-- `t <- now` (R19). -/
def stampEngine (s : State) : State := { s with eng := { s.eng with t := s.env.now } }

/-- `clock_line <- c; data_line <- d` (R20). -/
def setLines (c d : LineRef) (s : State) : State := { s with eng := { s.eng with clockLine := c, dataLine := d } }

/-- `dstate <- q` (R23). -/
def setDstate (q : DrvState) (s : State) : State := { s with drv := { s.drv with dstate := q } }

/-- `dt <- now` (R29). -/
def stampDriver (s : State) : State := { s with drv := { s.drv with dt := s.env.now } }

/-- `status <- v` (R24). -/
def setStatus (v : Byte) (s : State) : State := { s with drv := { s.drv with status := v } }

/-- `rawx <- v` (R25). -/
def setRawx (v : Byte) (s : State) : State := { s with drv := { s.drv with rawx := v } }

/-- `rawy <- v` (R25). -/
def setRawy (v : Byte) (s : State) : State := { s with drv := { s.drv with rawy := v } }

/-- The value the invocation returns. -/
def setResult (r : Result) (s : State) : State := { s with result := r }

/-- `mode[l] <- m` in the list of drive modes, identifiers kept rising. -/
def setMode (ms : List (LineId × DriveMode)) (l : LineId) (m : DriveMode) : List (LineId × DriveMode) :=
  match ms with
  | [] => [(l, m)]
  | (k, v) :: rest =>
    if l < k then (l, m) :: (k, v) :: rest
    else if l = k then (l, m) :: rest
    else (k, v) :: setMode rest l m

/-- `mode[line] <- m` for a line reference; `NONE` is no line and nothing is touched (R41, R106). -/
def setModeAt (ms : List (LineId × DriveMode)) (l : LineRef) (m : DriveMode) : List (LineId × DriveMode) :=
  match l with
  | none => ms
  | some k => setMode ms k m

/-- `Release(line)`: stop pulling the line low (R42). -/
def release (l : LineRef) (s : State) : State := { s with modes := setModeAt s.modes l .released }

/-- `AssertLow(line)`: drive the line low (R43). -/
def assertLow (l : LineRef) (s : State) : State := { s with modes := setModeAt s.modes l .assertedLow }

/-- `DriveData(v)`: put a bit on the data line (R92). -/
def driveData (v : Bool) (s : State) : State := { s with modes := setModeAt s.modes s.eng.dataLine (modeOfBit v) }

/-- `line_valid(c, d)` (R5, R101, D12): the platform's own predicate on two of its lines, the stated default (`NONE` in
neither place, two different identifiers), or a list of pairs. `NONE` is no identifier (R41), so no pair with it can be
bound. Log entries 4 and 5. -/
def lineValid (p : LineRule) (c d : LineRef) : Bool :=
  match c, d with
  | some x, some y =>
    match p with
    | .ofPlatform => Config.isLine x && Config.isLine y && Config.lineValid x y
    | .standard => x != y
    | .only pairs => pairs.contains (x, y)
  | _, _ => false

/-- `ASSIGN(c, d)`: return the engine to its power-on values, then bind the pair if it can be bound (R100, R101,
R241). A line that was bound before and is not in the new pair keeps its drive mode. -/
def assignLines (c d : LineRef) (s : State) : State :=
  if lineValid s.platform c d then
    setBstate .bIdle (release d (release c (setLines c d { s with eng := Engine.powerOn })))
  else { s with eng := Engine.powerOn }

/-- `REQW(b)`: latch the byte and queue a write (R102); nothing while no line is bound (R106); no meaning while an
operation is pending (R107). -/
def requestWrite (b : Byte) (s : State) : Answer :=
  if s.eng.bstate = .bUninit then .next s
  else if s.eng.busy then .refused .requestWhileBusy
  else .next (setSh b (setOp .write (setBusy true s)))

/-- `REQR`: queue a read (R103, R106, R107). -/
def requestRead (s : State) : Answer :=
  if s.eng.bstate = .bUninit then .next s
  else if s.eng.busy then .refused .requestWhileBusy
  else .next (setOp .read (setBusy true s))

/-- The last phrase of both protocols: hold the device off and clear `busy` (R130, R149). -/
def completeOperation (s : State) : State :=
  setBstate .bIdle (setBusy false (assertLow s.eng.clockLine s))

/-- `Decode`: add the deltas of the report held to the position and set the overflow flag, which does not gate the
accumulation (R196, R195). -/
def decodeReportHeld (s : State) : State :=
  { s with drv := { s.drv with
      posx := s.drv.posx + deltaX s.drv
      posy := s.drv.posy + deltaY s.drv
      ovf := overflowOf s.drv.status } }

/-- The engine is operated from outside only while the driver is not attached
(spec/93_implementation_defined.md U13, R253). -/
def byCaller (s : State) (act : State → Answer) : Answer :=
  if s.drv.dstate = .dUninit then act s else .refused .engineOwnedByDriver

/-- A transition row of `step()`: its rule is evaluated only while `bstate` holds its code (R108). Log entry 8. -/
def whenBus (q : BusState) (rule : State → State) (s : State) : Answer :=
  .next (if s.eng.bstate = q then rule s else s)

/-- A transition row of `advance()`: its rule is evaluated only while `dstate` holds its code (R161). Log entry 8. -/
def whenDrv (q : DrvState) (rule : State → Answer) (s : State) : Answer :=
  if s.drv.dstate = q then rule s else .next s

/-- The guard `busy = 0` of a driver state that waits for an operation (R111). -/
def whenIdle (act : State → Answer) (s : State) : Answer :=
  if s.eng.busy then .next s else act s

/-- `REQR; dstate <- q`. -/
def issueRead (q : DrvState) (s : State) : Answer :=
  andThen (requestRead s) fun t => .next (setDstate q t)

/-- `REQW(b); dstate <- q`. -/
def issueWrite (b : Byte) (q : DrvState) (s : State) : Answer :=
  andThen (requestWrite b s) fun t => .next (setDstate q t)

/-- Begin an invocation: it is taken from the caller, its inputs are sampled once (R9, R46, R47), and the value the
one before it returned is gone. Log entries 1, 6 and 7. -/
def beginCall (c : Call) (rest : List Call) (s : State) : State :=
  { s with calls := rest, env := c.sample, result := .none }

end Sys2Proof.Machine
end

