-- ==== Sys2Proof/Machine/DriverInit.lean ====
section
/-! DEFINITION. The transitions of the driver's initialisation handshake (spec/44_driver_ops_init.md R162, R164 to
R179): the rule of each wait, then the meaning of its row. A rule whose guard is false changes nothing (R111). -/

namespace Sys2Proof.Machine

/-- R162 `D_UNINIT`: nothing. -/
def ruleDUninit (s : State) : Answer := .next s

/-- R164 `D_ATTACH_SETTLE`. -/
def ruleDAttachSettle (s : State) : Answer :=
  if elapsed tDriverAttach s.drv.dt s.env.now then issueWrite byteReset .dResetCmd s else .next s

/-- R165 `D_RESET_CMD`. -/
def ruleDResetCmd (s : State) : Answer := whenIdle (issueRead .dResetAck) s

/-- R166 `D_RESET_ACK`: the acknowledgement is not looked at. -/
def ruleDResetAck (s : State) : Answer := whenIdle (issueRead .dResetB1) s

/-- R167 `D_RESET_B1`. -/
def ruleDResetB1 (s : State) : Answer := whenIdle (issueRead .dResetB2) s

/-- R168 `D_RESET_B2`. -/
def ruleDResetB2 (s : State) : Answer := whenIdle (issueWrite byteRemoteMode .dRemoteCmd) s

/-- R169 `D_REMOTE_CMD`. -/
def ruleDRemoteCmd (s : State) : Answer := whenIdle (issueRead .dRemoteAck) s

/-- R170 `D_REMOTE_ACK`. -/
def ruleDRemoteAck (s : State) : Answer := whenIdle (issueWrite byteSetRate .dRateCmd) s

/-- R171 `D_RATE_CMD`. -/
def ruleDRateCmd (s : State) : Answer := whenIdle (issueRead .dRateCmdAck) s

/-- R172 `D_RATE_CMD_ACK`. -/
def ruleDRateCmdAck (s : State) : Answer := whenIdle (issueWrite byteRate200 .dRateVal) s

/-- R173 `D_RATE_VAL`. -/
def ruleDRateVal (s : State) : Answer := whenIdle (issueRead .dRateValAck) s

/-- R174 `D_RATE_VAL_ACK`. -/
def ruleDRateValAck (s : State) : Answer := whenIdle (issueWrite byteSetResolution .dResCmd) s

/-- R175 `D_RES_CMD`. -/
def ruleDResCmd (s : State) : Answer := whenIdle (issueRead .dResCmdAck) s

/-- R176 `D_RES_CMD_ACK`. -/
def ruleDResCmdAck (s : State) : Answer := whenIdle (issueWrite byteResolution3 .dResVal) s

/-- R177 `D_RES_VAL`. -/
def ruleDResVal (s : State) : Answer := whenIdle (issueRead .dResValAck) s

/-- R178 `D_RES_VAL_ACK`: no request; the settle is timed from here. -/
def ruleDResValAck (s : State) : Answer :=
  whenIdle (fun u => .next (setDstate .dInitSettle (stampDriver u))) s

/-- R179 `D_INIT_SETTLE`. -/
def ruleDInitSettle (s : State) : Answer :=
  if elapsed tDriverInit s.drv.dt s.env.now then issueWrite byteRequestData .dPollCmd s else .next s

/-- Row `D_UNINIT` (R162). -/
def execDUninit (s : State) : Answer := whenDrv .dUninit ruleDUninit s

/-- Row `D_ATTACH_SETTLE` (R164). -/
def execDAttachSettle (s : State) : Answer := whenDrv .dAttachSettle ruleDAttachSettle s

/-- Row `D_RESET_CMD` (R165). -/
def execDResetCmd (s : State) : Answer := whenDrv .dResetCmd ruleDResetCmd s

/-- Row `D_RESET_ACK` (R166). -/
def execDResetAck (s : State) : Answer := whenDrv .dResetAck ruleDResetAck s

/-- Row `D_RESET_B1` (R167). -/
def execDResetB1 (s : State) : Answer := whenDrv .dResetB1 ruleDResetB1 s

/-- Row `D_RESET_B2` (R168). -/
def execDResetB2 (s : State) : Answer := whenDrv .dResetB2 ruleDResetB2 s

/-- Row `D_REMOTE_CMD` (R169). -/
def execDRemoteCmd (s : State) : Answer := whenDrv .dRemoteCmd ruleDRemoteCmd s

/-- Row `D_REMOTE_ACK` (R170). -/
def execDRemoteAck (s : State) : Answer := whenDrv .dRemoteAck ruleDRemoteAck s

/-- Row `D_RATE_CMD` (R171). -/
def execDRateCmd (s : State) : Answer := whenDrv .dRateCmd ruleDRateCmd s

/-- Row `D_RATE_CMD_ACK` (R172). -/
def execDRateCmdAck (s : State) : Answer := whenDrv .dRateCmdAck ruleDRateCmdAck s

/-- Row `D_RATE_VAL` (R173). -/
def execDRateVal (s : State) : Answer := whenDrv .dRateVal ruleDRateVal s

/-- Row `D_RATE_VAL_ACK` (R174). -/
def execDRateValAck (s : State) : Answer := whenDrv .dRateValAck ruleDRateValAck s

/-- Row `D_RES_CMD` (R175). -/
def execDResCmd (s : State) : Answer := whenDrv .dResCmd ruleDResCmd s

/-- Row `D_RES_CMD_ACK` (R176). -/
def execDResCmdAck (s : State) : Answer := whenDrv .dResCmdAck ruleDResCmdAck s

/-- Row `D_RES_VAL` (R177). -/
def execDResVal (s : State) : Answer := whenDrv .dResVal ruleDResVal s

/-- Row `D_RES_VAL_ACK` (R178). -/
def execDResValAck (s : State) : Answer := whenDrv .dResValAck ruleDResValAck s

/-- Row `D_INIT_SETTLE` (R179). -/
def execDInitSettle (s : State) : Answer := whenDrv .dInitSettle ruleDInitSettle s

end Sys2Proof.Machine
end

