-- ==== Sys2Proof/Machine/DriverPoll.lean ====
section
/-! DEFINITION. The transitions of the driver's polling loop (spec/45_driver_poll.md R190 to R197): the rule of each
wait, then the meaning of its row. -/

namespace Sys2Proof.Machine

/-- R190 `D_POLL_CMD`. -/
def ruleDPollCmd (s : State) : Answer := whenIdle (issueRead .dPollAck) s

/-- R191 `D_POLL_ACK`: the acknowledgement is not looked at. -/
def ruleDPollAck (s : State) : Answer := whenIdle (issueRead .dPollStatus) s

/-- R192 `D_POLL_STATUS`: `status <- TAKE`. -/
def ruleDPollStatus (s : State) : Answer :=
  whenIdle (fun u => issueRead .dPollX (setStatus u.eng.rx u)) s

/-- R193 `D_POLL_X`: `rawx <- TAKE`. -/
def ruleDPollX (s : State) : Answer :=
  whenIdle (fun u => issueRead .dPollY (setRawx u.eng.rx u)) s

/-- R194 `D_POLL_Y`: `rawy <- TAKE`, the decode, and the start of the polling interval. -/
def ruleDPollY (s : State) : Answer :=
  whenIdle (fun u =>
    .next (setDstate .dPollWait (stampDriver (decodeReportHeld (setRawy u.eng.rx u))))) s

/-- R197 `D_POLL_WAIT`. -/
def ruleDPollWait (s : State) : Answer :=
  if elapsed s.drv.pollInterval s.drv.dt s.env.now then issueWrite byteRequestData .dPollCmd s else .next s

/-- Row `D_POLL_CMD` (R190). -/
def execDPollCmd (s : State) : Answer := whenDrv .dPollCmd ruleDPollCmd s

/-- Row `D_POLL_ACK` (R191). -/
def execDPollAck (s : State) : Answer := whenDrv .dPollAck ruleDPollAck s

/-- Row `D_POLL_STATUS` (R192). -/
def execDPollStatus (s : State) : Answer := whenDrv .dPollStatus ruleDPollStatus s

/-- Row `D_POLL_X` (R193). -/
def execDPollX (s : State) : Answer := whenDrv .dPollX ruleDPollX s

/-- Row `D_POLL_Y` (R194). -/
def execDPollY (s : State) : Answer := whenDrv .dPollY ruleDPollY s

/-- Row `D_POLL_WAIT` (R197). -/
def execDPollWait (s : State) : Answer := whenDrv .dPollWait ruleDPollWait s

end Sys2Proof.Machine
end

