-- ==== Sys2Proof/Machine/CommandBytes.lean ====
section
/-! DEFINITION. The byte values the driver writes (spec/30_encoding.md R68, R69). A command byte stands for its write:
at its place in the driver's sequence the transition that writes it, on an engine that stands alone the request of it.
Which byte follows is fixed by the sequence and is not decoded from the byte (R69). Log entry 9. -/

namespace Sys2Proof.Machine

/-- A byte of R68: `rule` where `dstate` is the state whose transition writes it, else a request from outside. -/
def commandByte (b : Byte) (place : DrvState) (rule : State → Answer) (s : State) : Answer :=
  if s.drv.dstate = place then rule s else byCaller s (requestWrite b)

/-- `CMD_RESET`, 0xFF: written on leaving `D_ATTACH_SETTLE` (R68, R164). -/
def execCmdReset (s : State) : Answer := commandByte byteReset .dAttachSettle ruleDAttachSettle s

/-- `CMD_REMOTE_MODE`, 0xF0: written on leaving `D_RESET_B2` (R68, R168). -/
def execCmdRemoteMode (s : State) : Answer := commandByte byteRemoteMode .dResetB2 ruleDResetB2 s

/-- `CMD_SET_RATE`, 0xF3: written on leaving `D_REMOTE_ACK` (R68, R170). -/
def execCmdSetRate (s : State) : Answer := commandByte byteSetRate .dRemoteAck ruleDRemoteAck s

/-- `ARG_RATE_200`, 0xC8: written on leaving `D_RATE_CMD_ACK` (R68, R172). -/
def execArgRate200 (s : State) : Answer := commandByte byteRate200 .dRateCmdAck ruleDRateCmdAck s

/-- `CMD_SET_RESOLUTION`, 0xE8: written on leaving `D_RATE_VAL_ACK` (R68, R174). -/
def execCmdSetResolution (s : State) : Answer := commandByte byteSetResolution .dRateValAck ruleDRateValAck s

/-- `ARG_RESOLUTION_3`, 0x03: written on leaving `D_RES_CMD_ACK` (R68, R176). -/
def execArgResolution3 (s : State) : Answer := commandByte byteResolution3 .dResCmdAck ruleDResCmdAck s

/-- `CMD_REQUEST_DATA`, 0xEB: written on leaving `D_INIT_SETTLE` and `D_POLL_WAIT` (R68, R179, R197). -/
def execCmdRequestData (s : State) : Answer :=
  if s.drv.dstate = .dInitSettle then ruleDInitSettle s
  else commandByte byteRequestData .dPollWait ruleDPollWait s

end Sys2Proof.Machine
end

