-- ==== Sys2Proof/Machine/ReadProtocol.lean ====
section
/-! DEFINITION. The read protocol of the Bus Engine (spec/43_bus_read.md R140 to R149): the rule of each wait, then
the meaning of its row. A rule whose guard is false changes nothing (R111). -/

namespace Sys2Proof.Machine

/-- R140 `R_FREE_DELAY`. -/
def ruleRFreeDelay (s : State) : State :=
  if elapsed tReadFree s.eng.t s.env.now then setBstate .rStartLow s else s

/-- R141 `R_START_LOW`. -/
def ruleRStartLow (s : State) : State :=
  if clkLevel s = .low then setBstate .rStartSettle (stampEngine s) else s

/-- R142 `R_START_SETTLE`. -/
def ruleRStartSettle (s : State) : State :=
  if elapsed tReadStart s.eng.t s.env.now then setBstate .rStartRise s else s

/-- R143 `R_START_RISE`: the bit counter and the receive register are reset. -/
def ruleRStartRise (s : State) : State :=
  if clkLevel s = .high then setBstate .rBitLow (setRx 0x00#8 (setCnt 0#3 s)) else s

/-- R144 `R_BIT_LOW`: bit `cnt` of `rx` takes the data level of the sample that saw the clock low. -/
def ruleRBitLow (s : State) : State :=
  if clkLevel s = .low then
    setBstate .rBitHigh (setRx (setBitAt s.eng.rx s.eng.cnt (bitOfLevel (datLevel s))) s)
  else s

/-- R145 `R_BIT_HIGH`: the counter is incremented modulo 8 (R96); after the eighth bit the parity cell. -/
def ruleRBitHigh (s : State) : State :=
  if clkLevel s = .high then
    if s.eng.cnt = 7#3 then setBstate .rParLow (setCnt 0#3 s)
    else setBstate .rBitLow (setCnt (s.eng.cnt + 1#3) s)
  else s

/-- R146 `R_PAR_LOW`: the parity cell is consumed, not checked. -/
def ruleRParLow (s : State) : State :=
  if clkLevel s = .low then setBstate .rParHigh s else s

/-- R147 `R_PAR_HIGH`. -/
def ruleRParHigh (s : State) : State :=
  if clkLevel s = .high then setBstate .rStopLow s else s

/-- R148 `R_STOP_LOW`: the stop cell is consumed, not checked. -/
def ruleRStopLow (s : State) : State :=
  if clkLevel s = .low then setBstate .rStopHigh s else s

/-- R149 `R_STOP_HIGH`: the final clock-high completes the read. -/
def ruleRStopHigh (s : State) : State :=
  if clkLevel s = .high then completeOperation s else s

/-- Row `R_FREE_DELAY` (R140). -/
def execRFreeDelay (s : State) : Answer := whenBus .rFreeDelay ruleRFreeDelay s

/-- Row `R_START_LOW` (R141). -/
def execRStartLow (s : State) : Answer := whenBus .rStartLow ruleRStartLow s

/-- Row `R_START_SETTLE` (R142). -/
def execRStartSettle (s : State) : Answer := whenBus .rStartSettle ruleRStartSettle s

/-- Row `R_START_RISE` (R143). -/
def execRStartRise (s : State) : Answer := whenBus .rStartRise ruleRStartRise s

/-- Row `R_BIT_LOW` (R144). -/
def execRBitLow (s : State) : Answer := whenBus .rBitLow ruleRBitLow s

/-- Row `R_BIT_HIGH` (R145). -/
def execRBitHigh (s : State) : Answer := whenBus .rBitHigh ruleRBitHigh s

/-- Row `R_PAR_LOW` (R146). -/
def execRParLow (s : State) : Answer := whenBus .rParLow ruleRParLow s

/-- Row `R_PAR_HIGH` (R147). -/
def execRParHigh (s : State) : Answer := whenBus .rParHigh ruleRParHigh s

/-- Row `R_STOP_LOW` (R148). -/
def execRStopLow (s : State) : Answer := whenBus .rStopLow ruleRStopLow s

/-- Row `R_STOP_HIGH` (R149). -/
def execRStopHigh (s : State) : Answer := whenBus .rStopHigh ruleRStopHigh s

end Sys2Proof.Machine
end

