-- ==== Sys2Proof/Machine/WriteProtocol.lean ====
section
/-! DEFINITION. The write protocol of the Bus Engine (spec/42_bus_write.md R120 to R130): the rule of each wait, then
the meaning of its row. A rule whose guard is false changes nothing (R111). -/

namespace Sys2Proof.Machine

/-- R120 `W_SETTLE`. -/
def ruleWSettle (s : State) : State :=
  if elapsed tWriteSettle s.eng.t s.env.now then
    setBstate .wInhibit (stampEngine (assertLow s.eng.clockLine s))
  else s

/-- R121 `W_INHIBIT`. -/
def ruleWInhibit (s : State) : State :=
  if elapsed tWriteInhibit s.eng.t s.env.now then
    setBstate .wStart (stampEngine (assertLow s.eng.dataLine s))
  else s

/-- R122 `W_START`: the clock is released, `t` is not rewritten. -/
def ruleWStart (s : State) : State :=
  if elapsed tWriteStart s.eng.t s.env.now then
    setBstate .wDevClk (release s.eng.clockLine s)
  else s

/-- R123 `W_DEV_CLK`: the device takes over clocking; the first data bit goes on the line. -/
def ruleWDevClk (s : State) : State :=
  if clkLevel s = .low then setBstate .wBitRise (driveData (s.eng.sh.getLsbD 0) s) else s

/-- R124 `W_BIT_RISE`. -/
def ruleWBitRise (s : State) : State :=
  if clkLevel s = .high then setBstate .wBitFall s else s

/-- R125, the part before the test of `cnt`: the bit on the line goes into `par` and out of `sh` (R94, R95). -/
def takeBitOff (s : State) : State :=
  setSh (s.eng.sh >>> 1) (setPar (accumulateParity s.eng.par s.eng.sh) s)

/-- R125 `W_BIT_FALL`: after the eighth bit the parity cell, with the new `par`; else the next data bit, with the new
`sh`. The last bit is `cnt = 7` before the increment, which wraps modulo 8 (R96). -/
def ruleWBitFall (s : State) : State :=
  if clkLevel s = .low then
    let u := takeBitOff s
    if s.eng.cnt = 7#3 then setBstate .wParRise (driveData u.eng.par (setCnt 0#3 u))
    else setBstate .wBitRise (driveData (u.eng.sh.getLsbD 0) (setCnt (s.eng.cnt + 1#3) u))
  else s

/-- R126 `W_PAR_RISE`. -/
def ruleWParRise (s : State) : State :=
  if clkLevel s = .high then setBstate .wParFall s else s

/-- R127 `W_PAR_FALL`: the data line is released as the stop bit. -/
def ruleWParFall (s : State) : State :=
  if clkLevel s = .low then setBstate .wStopDelay (stampEngine (release s.eng.dataLine s)) else s

/-- R128 `W_STOP_DELAY`. -/
def ruleWStopDelay (s : State) : State :=
  if elapsed tWriteStop s.eng.t s.env.now then setBstate .wStopClkLow s else s

/-- R129 `W_STOP_CLK_LOW`. -/
def ruleWStopClkLow (s : State) : State :=
  if clkLevel s = .low then setBstate .wStopBothHigh s else s

/-- R130 `W_STOP_BOTH_HIGH`: both levels high in the one sample complete the write. -/
def ruleWStopBothHigh (s : State) : State :=
  if clkLevel s = .high ∧ datLevel s = .high then completeOperation s else s

/-- Row `W_SETTLE` (R120). -/
def execWSettle (s : State) : Answer := whenBus .wSettle ruleWSettle s

/-- Row `W_INHIBIT` (R121). -/
def execWInhibit (s : State) : Answer := whenBus .wInhibit ruleWInhibit s

/-- Row `W_START` (R122). -/
def execWStart (s : State) : Answer := whenBus .wStart ruleWStart s

/-- Row `W_DEV_CLK` (R123). -/
def execWDevClk (s : State) : Answer := whenBus .wDevClk ruleWDevClk s

/-- Row `W_BIT_RISE` (R124). -/
def execWBitRise (s : State) : Answer := whenBus .wBitRise ruleWBitRise s

/-- Row `W_BIT_FALL` (R125). -/
def execWBitFall (s : State) : Answer := whenBus .wBitFall ruleWBitFall s

/-- Row `W_PAR_RISE` (R126). -/
def execWParRise (s : State) : Answer := whenBus .wParRise ruleWParRise s

/-- Row `W_PAR_FALL` (R127). -/
def execWParFall (s : State) : Answer := whenBus .wParFall ruleWParFall s

/-- Row `W_STOP_DELAY` (R128). -/
def execWStopDelay (s : State) : Answer := whenBus .wStopDelay ruleWStopDelay s

/-- Row `W_STOP_CLK_LOW` (R129). -/
def execWStopClkLow (s : State) : Answer := whenBus .wStopClkLow ruleWStopClkLow s

/-- Row `W_STOP_BOTH_HIGH` (R130). -/
def execWStopBothHigh (s : State) : Answer := whenBus .wStopBothHigh ruleWStopBothHigh s

end Sys2Proof.Machine
end

