-- ==== Sys2Proof/Machine/BusEngine.lean ====
section
/-! DEFINITION. The six operations of the Bus Engine and the two transitions that belong to no protocol
(spec/41_bus_engine_ops.md R100 to R111). -/

namespace Sys2Proof.Machine

/-- R110 `B_UNINIT`: nothing is sampled and nothing is written. -/
def ruleBUninit (s : State) : State := s

/-- R109 `B_IDLE`: a queued request is dispatched. Both lines are released, the timestamp is taken; a write clears
`cnt` and `par`. -/
def ruleBIdle (s : State) : State :=
  if s.eng.busy then
    let u := stampEngine (release s.eng.dataLine (release s.eng.clockLine s))
    match s.eng.op with
    | .write => setBstate .wSettle (setPar false (setCnt 0#3 u))
    | .read => setBstate .rFreeDelay u
  else s

/-- `STEP`: one evaluation of the rule `bstate` selects (R108). -/
def engineStep (s : State) : State :=
  match s.eng.bstate with
  | .bUninit => ruleBUninit s
  | .bIdle => ruleBIdle s
  | .wSettle => ruleWSettle s
  | .wInhibit => ruleWInhibit s
  | .wStart => ruleWStart s
  | .wDevClk => ruleWDevClk s
  | .wBitRise => ruleWBitRise s
  | .wBitFall => ruleWBitFall s
  | .wParRise => ruleWParRise s
  | .wParFall => ruleWParFall s
  | .wStopDelay => ruleWStopDelay s
  | .wStopClkLow => ruleWStopClkLow s
  | .wStopBothHigh => ruleWStopBothHigh s
  | .rFreeDelay => ruleRFreeDelay s
  | .rStartLow => ruleRStartLow s
  | .rStartSettle => ruleRStartSettle s
  | .rStartRise => ruleRStartRise s
  | .rBitLow => ruleRBitLow s
  | .rBitHigh => ruleRBitHigh s
  | .rParLow => ruleRParLow s
  | .rParHigh => ruleRParHigh s
  | .rStopLow => ruleRStopLow s
  | .rStopHigh => ruleRStopHigh s

/-- `ASSIGN` (R100, R101). -/
def execAssign (c d : LineRef) (s : State) : Answer :=
  byCaller s fun u => .next (assignLines c d u)

/-- `REQW` (R102). -/
def execReqw (b : Byte) (s : State) : Answer :=
  byCaller s (requestWrite b)

/-- `REQR` (R103). -/
def execReqr (s : State) : Answer :=
  byCaller s requestRead

/-- `ISBUSY` (R104): returns `busy`, writes nothing. -/
def execIsBusy (s : State) : Answer :=
  .next (setResult (.bit s.eng.busy) s)

/-- `TAKE` (R105): returns `rx`, which is not removed. Log entry 16. -/
def execTake (s : State) : Answer :=
  .next (setResult (.byte s.eng.rx) s)

/-- `STEP` (R108). -/
def execStep (s : State) : Answer :=
  byCaller s fun u => .next (engineStep u)

/-- `ENG_OP` codes 110 and 111 are reserved: refused (R64). -/
def execEngReserved (_low : BitVec 1) (_s : State) : Answer :=
  .refused .reservedEngOp

/-- Row `B_UNINIT` (R110). -/
def execBUninit (s : State) : Answer := whenBus .bUninit ruleBUninit s

/-- Row `B_IDLE` (R109). -/
def execBIdle (s : State) : Answer := whenBus .bIdle ruleBIdle s

/-- `bstate` code 23 is reserved: refused (R64). -/
def execBusStateReserved23 (_s : State) : Answer :=
  .refused .reservedBusState

/-- `bstate` codes 24 to 31 are reserved: refused (R64). -/
def execBusStateReserved24to31 (_low : BitVec 3) (_s : State) : Answer :=
  .refused .reservedBusState

end Sys2Proof.Machine
end

