-- ==== Sys2Proof/Machine/DeviceDriver.lean ====
section
/-! DEFINITION. The three operations of the Device Driver (spec/44_driver_ops_init.md R160 to R163) and the reserved
codes beside them. -/

namespace Sys2Proof.Machine

/-- The driver half of `ADVANCE`: one evaluation of the rule `dstate` selects (R161). -/
def driverStep (s : State) : Answer :=
  match s.drv.dstate with
  | .dUninit => ruleDUninit s
  | .dAttachSettle => ruleDAttachSettle s
  | .dResetCmd => ruleDResetCmd s
  | .dResetAck => ruleDResetAck s
  | .dResetB1 => ruleDResetB1 s
  | .dResetB2 => ruleDResetB2 s
  | .dRemoteCmd => ruleDRemoteCmd s
  | .dRemoteAck => ruleDRemoteAck s
  | .dRateCmd => ruleDRateCmd s
  | .dRateCmdAck => ruleDRateCmdAck s
  | .dRateVal => ruleDRateVal s
  | .dRateValAck => ruleDRateValAck s
  | .dResCmd => ruleDResCmd s
  | .dResCmdAck => ruleDResCmdAck s
  | .dResVal => ruleDResVal s
  | .dResValAck => ruleDResValAck s
  | .dInitSettle => ruleDInitSettle s
  | .dPollCmd => ruleDPollCmd s
  | .dPollAck => ruleDPollAck s
  | .dPollStatus => ruleDPollStatus s
  | .dPollX => ruleDPollX s
  | .dPollY => ruleDPollY s
  | .dPollWait => ruleDPollWait s

/-- `ATTACH` (R160): the engine is bound as by `ASSIGN`; where the pair can be bound the initialisation starts, else
the driver is left uninitialized. The data collected so far is kept (R242). -/
def execAttach (c d : LineRef) (s : State) : Answer :=
  let u := assignLines c d s
  if u.eng.bstate = .bUninit then .next (setDstate .dUninit u)
  else .next (setDstate .dAttachSettle (stampDriver u))

/-- `ADVANCE` (R161): the engine's step, then the driver's transition on the state it left. -/
def execAdvance (s : State) : Answer :=
  driverStep (engineStep s)

/-- `POSITION` (R163): returns both components, writes nothing. -/
def execPosition (s : State) : Answer :=
  .next (setResult (.pair s.drv.posx s.drv.posy) s)

/-- `DRV_OP` code 11 is reserved: refused (R64). -/
def execDrvReserved (_s : State) : Answer :=
  .refused .reservedDrvOp

/-- `dstate` code 23 is reserved: refused (R64). -/
def execDrvStateReserved23 (_s : State) : Answer :=
  .refused .reservedDrvState

/-- `dstate` codes 24 to 31 are reserved: refused (R64). -/
def execDrvStateReserved24to31 (_low : BitVec 3) (_s : State) : Answer :=
  .refused .reservedDrvState

end Sys2Proof.Machine
end

