-- ==== Sys2Proof/Machine/WireFrames.lean ====
section
/-! DEFINITION. The two frames (spec/30_encoding.md R66, R67) as whole transfers: the pseudo-operations `WRITE` and
`READ` of R72, a request and then `STEP` until `busy` clears, against a device that clocks the frame as
spec/42_bus_write.md R132 and spec/43_bus_read.md R151 describe. Every register effect is the engine's own step. Log
entry 10. -/

namespace Sys2Proof.Machine

/-- One `STEP` of a frame: how many microseconds after the one before it, and what the device pulls low. -/
structure Phase where
  gap : Micros
  devC : Bool
  devD : Bool
deriving DecidableEq, Repr

/-- The state with the next sample of a frame in place. -/
def samplePhase (p : Phase) (s : State) : State :=
  { s with env := { now := s.env.now + p.gap, devC := p.devC, devD := p.devD } }

/-- `STEP` once for every phase. -/
def runPhases (ps : List Phase) (s : State) : State :=
  match ps with
  | [] => s
  | p :: rest => runPhases rest (engineStep (samplePhase p s))

/-- A clock cell of a write: the device lets the clock rise, then pulls it low. -/
def writeCell : List Phase :=
  [{ gap := 1#32, devC := false, devD := false }, { gap := 1#32, devC := true, devD := false }]

/-- The 26 steps of a write (R131, R132): dispatch, settle, inhibit, start bit, the device's first clock-low, nine
cells, the stop delay, one more clock-low, then both lines high. Each timed window ends at the first microsecond at
which it has elapsed. That the device leaves the data line alone throughout, with no acknowledge level (R129,
spec/93_implementation_defined.md U4: any), is a DESIGN CHOICE, log entry 10. -/
def writePhases : List Phase :=
  [{ gap := 0#32, devC := false, devD := false },
   { gap := tWriteSettle + 1#32, devC := false, devD := false },
   { gap := tWriteInhibit + 1#32, devC := false, devD := false },
   { gap := tWriteStart + 1#32, devC := false, devD := false },
   { gap := 1#32, devC := true, devD := false }] ++
  writeCell ++ writeCell ++ writeCell ++ writeCell ++ writeCell ++ writeCell ++ writeCell ++ writeCell ++
  writeCell ++
  [{ gap := tWriteStop + 1#32, devC := false, devD := false },
   { gap := 1#32, devC := true, devD := false },
   { gap := 1#32, devC := false, devD := false }]

/-- A clock cell of a read: clock low, then high, the data line at `v` throughout. -/
def readCell (v : Bool) : List Phase :=
  [{ gap := 1#32, devC := true, devD := !v }, { gap := 1#32, devC := false, devD := !v }]

/-- The 25 steps of a read (R150, R151): dispatch, the bus-free delay, the start cell with its settle, eight data
cells, the parity cell and the stop cell. -/
def readPhases (start : Bool) (b : Byte) (p stop : Bool) : List Phase :=
  [{ gap := 0#32, devC := false, devD := false },
   { gap := tReadFree + 1#32, devC := false, devD := false },
   { gap := 1#32, devC := true, devD := !start },
   { gap := tReadStart + 1#32, devC := true, devD := !start },
   { gap := 1#32, devC := false, devD := !start }] ++
  readCell (b.getLsbD 0) ++ readCell (b.getLsbD 1) ++ readCell (b.getLsbD 2) ++ readCell (b.getLsbD 3) ++
  readCell (b.getLsbD 4) ++ readCell (b.getLsbD 5) ++ readCell (b.getLsbD 6) ++ readCell (b.getLsbD 7) ++
  readCell p ++ readCell stop

/-- A write of `b` has been requested and not yet dispatched (R32). -/
def writeQueued (b : Byte) (s : State) : Bool :=
  s.eng.busy && decide (s.eng.bstate = .bIdle) && decide (s.eng.op = .write) && decide (s.eng.sh = b)

/-- A read has been requested and the device's frame has not begun (R32, R140, R141). -/
def frameAwaited (s : State) : Bool :=
  s.eng.busy && decide (s.eng.op = .read) &&
    (decide (s.eng.bstate = .bIdle) || decide (s.eng.bstate = .rFreeDelay) || decide (s.eng.bstate = .rStartLow))

/-- Row `FRAME_H2D` (R66): the byte `b` is sent with its parity cell. A write of `b` that is queued is carried out;
else the frame begins with its request, as `WRITE` does (R72). -/
def execFrameH2D (b : Byte) (p : Bool) (s : State) : Answer :=
  if p = parityOfByte b then
    if writeQueued b s then .next (runPhases writePhases s)
    else andThen (byCaller s (requestWrite b)) fun u => .next (runPhases writePhases u)
  else .refused .frameParity

/-- Row `FRAME_D2H` (R67): the device sends the cells; start, parity and stop cells are not looked at. A read that is
queued or waits for its start bit takes the frame; else the frame begins with its request, as `READ` does, which ends
with the byte taken (R72). -/
def execFrameD2H (start : Bool) (b : Byte) (p stop : Bool) (s : State) : Answer :=
  andThen (if frameAwaited s then .next s else byCaller s requestRead) fun u =>
    let v := runPhases (readPhases start b p stop) u
    .next (setResult (.byte v.eng.rx) v)

end Sys2Proof.Machine
end

