-- ==== Sys2Proof/Machine/WireReport.lean ====
section
/-! DEFINITION. A report (spec/30_encoding.md R70, R71) as a whole transfer: its three bytes come from the device as three
frames (R67), which the driver's polling loop reads, takes and decodes by its own `ADVANCE`s (spec/45_driver_poll.md R192
to R196). Log entry 12. -/

namespace Sys2Proof.Machine

/-- `ADVANCE` once for every phase. -/
def runAdvances (ps : List Phase) (s : State) : Answer :=
  match ps with
  | [] => .next s
  | p :: rest => andThen (execAdvance (samplePhase p s)) (runAdvances rest)

/-- The frame of a report byte. Its data cells are the byte, least significant bit first (R67). Its start, parity and stop
cells the block does not look at, and R67 and spec/93_implementation_defined.md U4 leave them to the device: that they are
0, the exclusive or of the byte, and 1 is a DESIGN CHOICE, log entry 12. -/
def reportFrame (b : Byte) : List Phase :=
  readPhases false b (parityOfByte b) true

/-- The phases of a report: its three frames, status first, then X, then Y (R49, R70). -/
def reportPhases (status rawx rawy : Byte) : List Phase :=
  reportFrame status ++ reportFrame rawx ++ reportFrame rawy

/-- The driver waits for the status byte of a report (R192), and the frame that brings it has not begun. -/
def reportAwaited (s : State) : Bool :=
  decide (s.drv.dstate = .dPollStatus) && frameAwaited s

/-- Row `REPORT_STATUS` (R70): the device sends the report's three bytes, and the block advances through them; the
position changes where the polling loop changes it, in `D_POLL_Y` (R163, R194). A report that the driver does not wait
for is not sent: while no read is pending the device is held off (R22 (e), R258). Log entry 12. -/
def execReportStatus (status rawx rawy : Byte) (s : State) : Answer :=
  if reportAwaited s then runAdvances (reportPhases status rawx rawy) s else .next s

end Sys2Proof.Machine
end

