-- ==== Sys2Proof/Machine/Dispatch.lean ====
section
/-! DEFINITION. The dispatch: one arm per constructor of Instr, each one direct call of its meaning. -/

namespace Sys2Proof.Machine

def exec (i : Instr) (s : State) : Host.Outcome State Fault Refusal :=
  match i with
  | .assign c d => Sys2Proof.Machine.execAssign c d s
  | .reqw b => Sys2Proof.Machine.execReqw b s
  | .reqr => Sys2Proof.Machine.execReqr s
  | .isBusy => Sys2Proof.Machine.execIsBusy s
  | .take => Sys2Proof.Machine.execTake s
  | .step => Sys2Proof.Machine.execStep s
  | .engReserved low => Sys2Proof.Machine.execEngReserved low s
  | .attach c d => Sys2Proof.Machine.execAttach c d s
  | .advance => Sys2Proof.Machine.execAdvance s
  | .position => Sys2Proof.Machine.execPosition s
  | .drvReserved => Sys2Proof.Machine.execDrvReserved s
  | .bUninit => Sys2Proof.Machine.execBUninit s
  | .bIdle => Sys2Proof.Machine.execBIdle s
  | .wSettle => Sys2Proof.Machine.execWSettle s
  | .wInhibit => Sys2Proof.Machine.execWInhibit s
  | .wStart => Sys2Proof.Machine.execWStart s
  | .wDevClk => Sys2Proof.Machine.execWDevClk s
  | .wBitRise => Sys2Proof.Machine.execWBitRise s
  | .wBitFall => Sys2Proof.Machine.execWBitFall s
  | .wParRise => Sys2Proof.Machine.execWParRise s
  | .wParFall => Sys2Proof.Machine.execWParFall s
  | .wStopDelay => Sys2Proof.Machine.execWStopDelay s
  | .wStopClkLow => Sys2Proof.Machine.execWStopClkLow s
  | .wStopBothHigh => Sys2Proof.Machine.execWStopBothHigh s
  | .rFreeDelay => Sys2Proof.Machine.execRFreeDelay s
  | .rStartLow => Sys2Proof.Machine.execRStartLow s
  | .rStartSettle => Sys2Proof.Machine.execRStartSettle s
  | .rStartRise => Sys2Proof.Machine.execRStartRise s
  | .rBitLow => Sys2Proof.Machine.execRBitLow s
  | .rBitHigh => Sys2Proof.Machine.execRBitHigh s
  | .rParLow => Sys2Proof.Machine.execRParLow s
  | .rParHigh => Sys2Proof.Machine.execRParHigh s
  | .rStopLow => Sys2Proof.Machine.execRStopLow s
  | .rStopHigh => Sys2Proof.Machine.execRStopHigh s
  | .busStateReserved23 => Sys2Proof.Machine.execBusStateReserved23 s
  | .busStateReserved24to31 low => Sys2Proof.Machine.execBusStateReserved24to31 low s
  | .dUninit => Sys2Proof.Machine.execDUninit s
  | .dAttachSettle => Sys2Proof.Machine.execDAttachSettle s
  | .dResetCmd => Sys2Proof.Machine.execDResetCmd s
  | .dResetAck => Sys2Proof.Machine.execDResetAck s
  | .dResetB1 => Sys2Proof.Machine.execDResetB1 s
  | .dResetB2 => Sys2Proof.Machine.execDResetB2 s
  | .dRemoteCmd => Sys2Proof.Machine.execDRemoteCmd s
  | .dRemoteAck => Sys2Proof.Machine.execDRemoteAck s
  | .dRateCmd => Sys2Proof.Machine.execDRateCmd s
  | .dRateCmdAck => Sys2Proof.Machine.execDRateCmdAck s
  | .dRateVal => Sys2Proof.Machine.execDRateVal s
  | .dRateValAck => Sys2Proof.Machine.execDRateValAck s
  | .dResCmd => Sys2Proof.Machine.execDResCmd s
  | .dResCmdAck => Sys2Proof.Machine.execDResCmdAck s
  | .dResVal => Sys2Proof.Machine.execDResVal s
  | .dResValAck => Sys2Proof.Machine.execDResValAck s
  | .dInitSettle => Sys2Proof.Machine.execDInitSettle s
  | .dPollCmd => Sys2Proof.Machine.execDPollCmd s
  | .dPollAck => Sys2Proof.Machine.execDPollAck s
  | .dPollStatus => Sys2Proof.Machine.execDPollStatus s
  | .dPollX => Sys2Proof.Machine.execDPollX s
  | .dPollY => Sys2Proof.Machine.execDPollY s
  | .dPollWait => Sys2Proof.Machine.execDPollWait s
  | .drvStateReserved23 => Sys2Proof.Machine.execDrvStateReserved23 s
  | .drvStateReserved24to31 low => Sys2Proof.Machine.execDrvStateReserved24to31 low s
  | .cmdReset => Sys2Proof.Machine.execCmdReset s
  | .cmdRemoteMode => Sys2Proof.Machine.execCmdRemoteMode s
  | .cmdSetRate => Sys2Proof.Machine.execCmdSetRate s
  | .argRate200 => Sys2Proof.Machine.execArgRate200 s
  | .cmdSetResolution => Sys2Proof.Machine.execCmdSetResolution s
  | .argResolution3 => Sys2Proof.Machine.execArgResolution3 s
  | .cmdRequestData => Sys2Proof.Machine.execCmdRequestData s
  | .frameH2D b p => Sys2Proof.Machine.execFrameH2D b p s
  | .frameD2H start b p stop => Sys2Proof.Machine.execFrameD2H start b p stop s
  | .reportStatus status rawx rawy => Sys2Proof.Machine.execReportStatus status rawx rawy s

end Sys2Proof.Machine
end

