-- ==== Sys2Proof/Machine/Step.lean ====
section
/-! DEFINITION. One step of the machine: the caller's next invocation. Between invocations the block does nothing and
keeps all state (spec/60_exceptions.md R222). -/

namespace Sys2Proof.Machine

/-- One step: the next invocation is taken, decoded and executed (R9, R53); with none to make, nothing changes
(R222). Log entry 1. -/
def step (s : State) : Host.Outcome State Fault Refusal :=
  match s.calls with
  | [] => .next s
  | c :: rest =>
    match decode c.word with
    | .ok i => exec i (beginCall c rest s)
    | .error e => .refused (.undecodable e)

/-- `s` with the word's instruction as its next invocation, sampled with the inputs `s` holds. A transition is fetched
from the state tag (R12, R23), so the tag is set to the word's code too. Log entries 1 and 2. -/
def State.withFetchWord (s : State) (nbits w : Nat) : State :=
  let called := { s with calls := { word := tableWord nbits w, sample := s.env } :: s.calls }
  match tableFormat nbits w with
  | .busState =>
    match BusState.ofCode w with
    | some q => setBstate q called
    | none => called
  | .drvState =>
    match DrvState.ofCode w with
    | some q => setDstate q called
    | none => called
  | _ => called

end Sys2Proof.Machine
end

