-- ==== Sys2Proof/Safety.lean ====
section
/-! DEFINITION. The conditions claims are stated with: the invariants of the engine (spec/10_state.md R22), of the
lines it drives (R21, spec/70_reset_and_hazards.md R260), of the driver (R30), and which instructions a caller of the
block can invoke (R61, R62). -/

namespace Sys2Proof.Machine

/-- The clock line is low at the sample of this invocation: the block drives it low, or the device pulls it (R44), which
for a line bound as clock and data is either pull (log entry 28). -/
abbrev clockLow (s : State) : Prop :=
  modeAt s.modes s.eng.clockLine = some .assertedLow ∨ s.env.devC = true ∨
    s.eng.clockLine = s.eng.dataLine ∧ s.env.devD = true

/-- The clock line is high: neither end pulls it low (R44). -/
abbrev clockHigh (s : State) : Prop :=
  modeAt s.modes s.eng.clockLine ≠ some .assertedLow ∧ s.env.devC = false ∧
    (s.eng.clockLine = s.eng.dataLine → s.env.devD = false)

/-- The data line is high: neither end pulls it low (R44). -/
abbrev dataHigh (s : State) : Prop :=
  modeAt s.modes s.eng.dataLine ≠ some .assertedLow ∧ s.env.devD = false ∧
    (s.eng.clockLine = s.eng.dataLine → s.env.devC = false)

/-- `W_SETTLE` .. `W_STOP_BOTH_HIGH` (R12). -/
def inWrite (q : BusState) : Bool :=
  match q with
  | .wSettle | .wInhibit | .wStart | .wDevClk | .wBitRise | .wBitFall | .wParRise | .wParFall | .wStopDelay
  | .wStopClkLow | .wStopBothHigh => true
  | .bUninit | .bIdle | .rFreeDelay | .rStartLow | .rStartSettle | .rStartRise | .rBitLow | .rBitHigh | .rParLow
  | .rParHigh | .rStopLow | .rStopHigh => false

/-- `R_FREE_DELAY` .. `R_STOP_HIGH` (R12). -/
def inRead (q : BusState) : Bool :=
  match q with
  | .rFreeDelay | .rStartLow | .rStartSettle | .rStartRise | .rBitLow | .rBitHigh | .rParLow | .rParHigh | .rStopLow
  | .rStopHigh => true
  | .bUninit | .bIdle | .wSettle | .wInhibit | .wStart | .wDevClk | .wBitRise | .wBitFall | .wParRise | .wParFall
  | .wStopDelay | .wStopClkLow | .wStopBothHigh => false

/-- The driver states that wait for a write to complete (R23). -/
def awaitsWrite (q : DrvState) : Bool :=
  match q with
  | .dResetCmd | .dRemoteCmd | .dRateCmd | .dRateVal | .dResCmd | .dResVal | .dPollCmd => true
  | .dUninit | .dAttachSettle | .dResetAck | .dResetB1 | .dResetB2 | .dRemoteAck | .dRateCmdAck | .dRateValAck
  | .dResCmdAck | .dResValAck | .dInitSettle | .dPollAck | .dPollStatus | .dPollX | .dPollY | .dPollWait => false

/-- The driver states that wait for a read to complete (R23). -/
def awaitsRead (q : DrvState) : Bool :=
  match q with
  | .dResetAck | .dResetB1 | .dResetB2 | .dRemoteAck | .dRateCmdAck | .dRateValAck | .dResCmdAck | .dResValAck
  | .dPollAck | .dPollStatus | .dPollX | .dPollY => true
  | .dUninit | .dAttachSettle | .dResetCmd | .dRemoteCmd | .dRateCmd | .dRateVal | .dResCmd | .dResVal | .dInitSettle
  | .dPollCmd | .dPollWait => false

/-- The driver states that wait for time to pass (R23, R29). -/
def awaitsTime (q : DrvState) : Bool :=
  match q with
  | .dAttachSettle | .dInitSettle | .dPollWait => true
  | .dUninit | .dResetCmd | .dResetAck | .dResetB1 | .dResetB2 | .dRemoteCmd | .dRemoteAck | .dRateCmd | .dRateCmdAck
  | .dRateVal | .dRateValAck | .dResCmd | .dResCmdAck | .dResVal | .dResValAck | .dPollCmd | .dPollAck | .dPollStatus
  | .dPollX | .dPollY => false

/-- The drive mode of the clock line that the engine's state fixes (R260, R131, R150); in `B_IDLE` it depends on what
came before (R22 (e)). -/
def clockModeFits (e : Engine) (m : Option DriveMode) : Prop :=
  match e.bstate with
  | .bUninit => True
  | .bIdle => m ≠ none
  | .wInhibit | .wStart => m = some .assertedLow
  | .wSettle | .wDevClk | .wBitRise | .wBitFall | .wParRise | .wParFall | .wStopDelay | .wStopClkLow | .wStopBothHigh
  | .rFreeDelay | .rStartLow | .rStartSettle | .rStartRise | .rBitLow | .rBitHigh | .rParLow | .rParHigh | .rStopLow
  | .rStopHigh => m = some .released

/-- The drive mode of the data line that the engine's state fixes: the start bit, then the data bit in `sh[0]`, then
the parity bit, else released (R260, R131, R150). -/
def dataModeFits (e : Engine) (m : Option DriveMode) : Prop :=
  match e.bstate with
  | .bUninit => True
  | .wStart | .wDevClk => m = some .assertedLow
  | .wBitRise | .wBitFall => m = some (modeOfBit (e.sh.getLsbD 0))
  | .wParRise | .wParFall => m = some (modeOfBit e.par)
  | .bIdle | .wSettle | .wInhibit | .wStopDelay | .wStopClkLow | .wStopBothHigh | .rFreeDelay | .rStartLow
  | .rStartSettle | .rStartRise | .rBitLow | .rBitHigh | .rParLow | .rParHigh | .rStopLow | .rStopHigh =>
    m = some .released

/-- The list of drive modes is in its one form: identifiers strictly rising (log entry 17). -/
abbrev modesRising (ms : List (LineId × DriveMode)) : Prop :=
  ms.Pairwise fun a b => a.1 < b.1

/-- R22 (a) to (c). -/
structure EngineInv (s : State) : Prop where
  unbound : s.eng.bstate = .bUninit → s.eng.busy = false ∧ s.eng.clockLine = none ∧ s.eng.dataLine = none
  pending : s.eng.bstate ≠ .bUninit → s.eng.bstate ≠ .bIdle → s.eng.busy = true
  writing : inWrite s.eng.bstate = true → s.eng.op = .write
  reading : inRead s.eng.bstate = true → s.eng.op = .read

/-- The two lines: a bound pair is one that can be bound (R100), and the drive modes are those the state fixes. The modes
are said for two different lines: a platform whose `line_valid` admits one line in both places (R5: open) has the last
write to it stand for either. -/
structure LinesInv (s : State) : Prop where
  rising : modesRising s.modes
  bound : s.eng.bstate ≠ .bUninit → lineValid s.platform s.eng.clockLine s.eng.dataLine = true
  clock : s.eng.clockLine ≠ s.eng.dataLine → clockModeFits s.eng (modeAt s.modes s.eng.clockLine)
  data : s.eng.clockLine ≠ s.eng.dataLine → dataModeFits s.eng (modeAt s.modes s.eng.dataLine)

/-- R30: an attached driver has a bound engine; in a timed wait the engine is idle; the operation pending is the one
the driver waits for. R22 (e), R258, R260: under an attached driver the device is held off between operations. While the
driver is in `D_ATTACH_SETTLE`, and until its first command is dispatched, the clock line is released; from the end of
each operation to the dispatch of the next, `D_INIT_SETTLE` and `D_POLL_WAIT` between them, it is held low. -/
structure DriverInv (s : State) : Prop where
  attached : s.drv.dstate ≠ .dUninit → s.eng.bstate ≠ .bUninit
  idle : awaitsTime s.drv.dstate = true → s.eng.busy = false ∧ s.eng.bstate = .bIdle
  writeAwaited : awaitsWrite s.drv.dstate = true → s.eng.busy = true → s.eng.op = .write
  readAwaited : awaitsRead s.drv.dstate = true → s.eng.busy = true → s.eng.op = .read
  attachReleased : s.drv.dstate = .dAttachSettle → modeAt s.modes s.eng.clockLine = some .released
  firstReleased : s.drv.dstate = .dResetCmd → s.eng.bstate = .bIdle → s.eng.busy = true →
    modeAt s.modes s.eng.clockLine = some .released
  heldAfter : s.drv.dstate ≠ .dUninit → s.drv.dstate ≠ .dAttachSettle → s.eng.busy = false →
    modeAt s.modes s.eng.clockLine = some .assertedLow
  heldUntilDispatch : s.drv.dstate ≠ .dUninit → s.drv.dstate ≠ .dResetCmd → s.eng.bstate = .bIdle →
    s.eng.busy = true → modeAt s.modes s.eng.clockLine = some .assertedLow

/-- The invariant of the machine. -/
structure Inv (s : State) : Prop where
  engine : EngineInv s
  lines : LinesInv s
  driver : DriverInv s

/-- The nine operations a caller of the block can invoke (R61, R62). Every other instruction is a part of one. -/
def isOperation (i : Instr) : Bool :=
  match (encode i).format with
  | .engOp => i.wellFormed
  | .drvOp => i.wellFormed
  | .busState | .drvState | .cmdByte | .frameH2D | .frameD2H | .report => false

end Sys2Proof.Machine
end

