-- ==== Sys2Proof/Certificates/Slice0/Obligations.lean ====
section
/-! DEFINITION. The statements for the provers. Each says which rule of spec/ it formalises; the line and register
updates are written out as records, so that a statement says an instruction's result and its frame at once (R8). -/

open Sys2Proof Sys2Proof.Machine

-- Encoding

/-- R61 to R70: every instruction is read back from its own code word, with every operand. -/
def Obligations.DecodeReadsBackEncode : Prop :=
  ∀ i : Instr, decode (encode i) = .ok i

/-- R60 to R70: no bit of a code is dropped and no two rows of a format overlap: a code word that decodes is, in format
and code, the one the encoder writes for its instruction. -/
def Obligations.DecodedCodeIsTheEncodersCode : Prop :=
  ∀ (w : CodeWord) (i : Instr), decode w = .ok i →
    (encode i).format = w.format ∧ (encode i).code = w.code

/-- R61, R62, R63, R68, R66, R67, R70: words of each format, their bits written out from the spec's tables. The
operation codes and the state codes are the spec's own choice (spec/92_eei_decisions.md D18; D2, D3). That the operands
stand beside the code, on `lineC`, `lineD` and `wbyte`, and the X and Y bytes of a report beside its status byte, is the
model's reading (log entry 3, DEDUCED). -/
def Obligations.WordsOfEachFormatDecode : Prop :=
  decode (plainWord .engOp 0b101#16) = .ok .step ∧
  decode { plainWord .engOp 0b001#16 with wbyte := 0x5A#8 } = .ok (.reqw 0x5A#8) ∧
  decode { plainWord .drvOp 0b00#16 with lineC := some 2, lineD := some 3 } = .ok (.attach (some 2) (some 3)) ∧
  decode (plainWord .busState 0b00111#16) = .ok .wBitFall ∧
  decode (plainWord .drvState 0b10101#16) = .ok .dPollY ∧
  decode (plainWord .cmdByte 0b11101011#16) = .ok .cmdRequestData ∧
  decode (plainWord .frameH2D 0b11000000010#16) = .ok (.frameH2D 0x01#8 true) ∧
  decode (plainWord .frameD2H 0b10101001010#16) = .ok (.frameD2H false 0xA5#8 false true) ∧
  decode { plainWord .report 0b01010000#16 with ybyte := 0x7F#8 } = .ok (.reportStatus 0x50#8 0x00#8 0x7F#8)

/-- R12, R23, R63, R14, R21: the code of every state, number by number from 0 to 22, the state it names and the
transition it selects; no other number names a state; the codes of `op` and of a drive mode. The codes of the states are
the spec's own choice (spec/92_eei_decisions.md D2, D3). -/
def Obligations.StateCodesSelectTheirTransitions : Prop :=
  (∀ row ∈ ([(.bUninit, 0, .bUninit), (.bIdle, 1, .bIdle), (.wSettle, 2, .wSettle), (.wInhibit, 3, .wInhibit),
      (.wStart, 4, .wStart), (.wDevClk, 5, .wDevClk), (.wBitRise, 6, .wBitRise), (.wBitFall, 7, .wBitFall),
      (.wParRise, 8, .wParRise), (.wParFall, 9, .wParFall), (.wStopDelay, 10, .wStopDelay),
      (.wStopClkLow, 11, .wStopClkLow), (.wStopBothHigh, 12, .wStopBothHigh), (.rFreeDelay, 13, .rFreeDelay),
      (.rStartLow, 14, .rStartLow), (.rStartSettle, 15, .rStartSettle), (.rStartRise, 16, .rStartRise),
      (.rBitLow, 17, .rBitLow), (.rBitHigh, 18, .rBitHigh), (.rParLow, 19, .rParLow), (.rParHigh, 20, .rParHigh),
      (.rStopLow, 21, .rStopLow), (.rStopHigh, 22, .rStopHigh)] :
        List (BusState × Nat × Instr)),
    row.1.code.toNat = row.2.1 ∧ BusState.ofCode row.2.1 = some row.1 ∧ row.1.transition = row.2.2 ∧
    decode (plainWord .busState (BitVec.ofNat 16 row.2.1)) = .ok row.2.2) ∧
  (∀ row ∈ ([(.dUninit, 0, .dUninit), (.dAttachSettle, 1, .dAttachSettle), (.dResetCmd, 2, .dResetCmd),
      (.dResetAck, 3, .dResetAck), (.dResetB1, 4, .dResetB1), (.dResetB2, 5, .dResetB2),
      (.dRemoteCmd, 6, .dRemoteCmd), (.dRemoteAck, 7, .dRemoteAck), (.dRateCmd, 8, .dRateCmd),
      (.dRateCmdAck, 9, .dRateCmdAck), (.dRateVal, 10, .dRateVal), (.dRateValAck, 11, .dRateValAck),
      (.dResCmd, 12, .dResCmd), (.dResCmdAck, 13, .dResCmdAck), (.dResVal, 14, .dResVal),
      (.dResValAck, 15, .dResValAck), (.dInitSettle, 16, .dInitSettle), (.dPollCmd, 17, .dPollCmd),
      (.dPollAck, 18, .dPollAck), (.dPollStatus, 19, .dPollStatus), (.dPollX, 20, .dPollX), (.dPollY, 21, .dPollY),
      (.dPollWait, 22, .dPollWait)] :
        List (DrvState × Nat × Instr)),
    row.1.code.toNat = row.2.1 ∧ DrvState.ofCode row.2.1 = some row.1 ∧ row.1.transition = row.2.2 ∧
    decode (plainWord .drvState (BitVec.ofNat 16 row.2.1)) = .ok row.2.2) ∧
  (∀ q : BusState, BusState.ofCode q.code.toNat = some q ∧
    decode (plainWord .busState (q.code.setWidth 16)) = .ok q.transition) ∧
  (∀ q : DrvState, DrvState.ofCode q.code.toNat = some q ∧
    decode (plainWord .drvState (q.code.setWidth 16)) = .ok q.transition) ∧
  (∀ n, 22 < n → BusState.ofCode n = none ∧ DrvState.ofCode n = none) ∧
  OpKind.code .write = 0#1 ∧ OpKind.code .read = 1#1 ∧
  DriveMode.code .released = 0#1 ∧ DriveMode.code .assertedLow = 1#1

/-- R64: the reserved operation codes and state codes have no meaning. The refusal is the spec's own decision
(spec/92_eei_decisions.md D26; log entry 15). -/
def Obligations.ReservedCodesAreRefused : Prop :=
  ∀ s : State,
    (∀ low, exec (.engReserved low) s = .refused .reservedEngOp) ∧
    exec .drvReserved s = .refused .reservedDrvOp ∧
    exec .busStateReserved23 s = .refused .reservedBusState ∧
    (∀ low, exec (.busStateReserved24to31 low) s = .refused .reservedBusState) ∧
    exec .drvStateReserved23 s = .refused .reservedDrvState ∧
    (∀ low, exec (.drvStateReserved24to31 low) s = .refused .reservedDrvState)

-- The step of the machine

/-- R9, R46, R47, R53: the next invocation is taken, its sample is in place, and exactly its instruction runs. The
fields `calls`, `env` and `result` are the model's interface (log entries 1, 6, 7). -/
def Obligations.StepRunsTheDecodedInstruction : Prop :=
  ∀ (s : State) (c : Call) (rest : List Call) (i : Instr),
    s.calls = c :: rest → decode c.word = .ok i →
    step s = exec i { s with calls := rest, env := c.sample, result := .none }

/-- R222: "between invocations the block does nothing and keeps all state". That such a step is the identity is the
model's form of it (log entry 1). -/
def Obligations.NoInvocationNoChange : Prop :=
  ∀ s : State, s.calls = [] → step s = .next s

/-- R64, R60: a code word that is no instruction is refused by name. The model's choice (log entry 25). -/
def Obligations.StepRefusesAWordThatIsNoInstruction : Prop :=
  ∀ (s : State) (c : Call) (rest : List Call) (e : DecodeError),
    s.calls = c :: rest → decode c.word = .error e → step s = .refused (.undecodable e)

-- Reset

/-- R33: every element after power-on. Where the source gives no value, the value is the spec's own choice
(spec/92_eei_decisions.md D10; log entry 20). -/
def Obligations.PowerOnValues : Prop :=
  State.reset.eng =
    { bstate := .bUninit, busy := false, op := .write, sh := 0x00#8, cnt := 0#3, par := false,
      rx := 0x00#8, t := 0#32, clockLine := none, dataLine := none } ∧
  State.reset.modes = [] ∧
  State.reset.drv =
    { dstate := .dUninit, status := 0x00#8, rawx := 0x00#8, rawy := 0x00#8, posx := 0, posy := 0,
      ovf := false, pollInterval := 1000#32, dt := 0#32 }

-- Invariants

/-- R22, R30: the invariants hold after power-on. -/
def Obligations.PowerOnStateIsInvariant : Prop :=
  Inv State.reset

/-- R22, R30, with the drive modes of R260 and the one form of the line list (log entry 17): every step keeps them. R22
(e), R258: under an attached driver the clock line is released in `D_ATTACH_SETTLE` and until the first command is
dispatched, and held low from the end of each operation to the dispatch of the next, with `D_INIT_SETTLE` and
`D_POLL_WAIT` between them. -/
def Obligations.EveryStepKeepsTheInvariant : Prop :=
  ∀ s s' : State, Inv s → step s = .next s' → Inv s'

/-- R30 (d): the driver never issues a request while `busy` = 1, so `ADVANCE` always answers a next state. -/
def Obligations.AdvanceNeverRequestsWhileBusy : Prop :=
  ∀ s : State, Inv s → ∃ t, exec .advance s = .next t

-- Timing, lines

/-- R90: the difference is of fixed-width unsigned integers modulo 2^32, and the comparison strict. -/
def Obligations.ElapsedIsStrictModuloTheCounter : Prop :=
  ∀ interval since now : Micros,
    elapsed interval since now = true ↔ interval.toNat < (now.toNat + 2 ^ 32 - since.toNat) % 2 ^ 32

/-- R42, R43, R44: after `Release` the level follows the device, after `AssertLow` it is low whatever the device
does, and every other line keeps its drive mode. The zero-delay level is the spec's own decision
(spec/92_eei_decisions.md D16; log entry 18). The levels a rule samples are those of the bound lines; one line bound as
clock and data has one level, low if either pull of the sample is (the model's choice, log entry 28). -/
def Obligations.LevelAfterReleaseAndAssertLow : Prop :=
  (∀ s : State, (clkLevel s = .low ↔ clockLow s) ∧ (clkLevel s = .high ↔ clockHigh s) ∧
    (datLevel s = .high ↔ dataHigh s) ∧ (s.eng.clockLine = s.eng.dataLine → datLevel s = clkLevel s)) ∧
  ∀ (s : State) (l : LineId) (pulled : Bool),
    levelOf (release (some l) s).modes (some l) pulled = (if pulled then .low else .high) ∧
    levelOf (assertLow (some l) s).modes (some l) pulled = .low ∧
    ∀ k : LineId, k ≠ l →
      modeAt (release (some l) s).modes (some k) = modeAt s.modes (some k) ∧
      modeAt (assertLow (some l) s).modes (some k) = modeAt s.modes (some k)

/-- R92, R93, R44: a bit driven on the data line is read back by a device that does not pull it: 1 high, 0 low. The
polarity is the spec's own decision (spec/92_eei_decisions.md D17). -/
def Obligations.DrivenBitIsTheSampledBit : Prop :=
  ∀ (s : State) (l : LineId) (v : Bool), s.eng.dataLine = some l →
    bitOfLevel (levelOf (driveData v s).modes (some l) false) = v ∧
    bitOfLevel (levelOf (driveData v s).modes (some l) true) = false

/-- R5: the default of `line_valid`. `line_valid` is open; this is the default the spec states (log entry 5). -/
def Obligations.DefaultLineValid : Prop :=
  ∀ c d : LineRef, lineValid .standard c d = true ↔ c ≠ none ∧ d ≠ none ∧ c ≠ d

-- Engine operations

/-- R100, R101, R241: the engine takes its power-on values; a pair that can be bound is bound and released. Every
other line keeps its drive mode, and the driver keeps everything. What re-binding keeps is the spec's own decision
(spec/92_eei_decisions.md D11, D12; log entry 21); the premise on `dstate` is the model's (log entry 13). -/
def Obligations.AssignRestartsTheEngine : Prop :=
  ∀ (s : State) (c d : LineRef), s.drv.dstate = .dUninit →
    (lineValid s.platform c d = true →
      exec (.assign c d) s = .next { s with
        eng := { bstate := .bIdle, busy := false, op := .write, sh := 0x00#8, cnt := 0#3, par := false, rx := 0x00#8,
                 t := 0#32, clockLine := c, dataLine := d }
        modes := setModeAt (setModeAt s.modes c .released) d .released }) ∧
    (lineValid s.platform c d = false →
      exec (.assign c d) s = .next { s with
        eng := { bstate := .bUninit, busy := false, op := .write, sh := 0x00#8, cnt := 0#3, par := false,
                 rx := 0x00#8, t := 0#32, clockLine := none, dataLine := none } })

/-- R102: the byte is latched and a write queued. With the driver not attached (log entry 13). -/
def Obligations.RequestWriteLatchesAndQueues : Prop :=
  ∀ (s : State) (b : Byte),
    s.drv.dstate = .dUninit → s.eng.bstate ≠ .bUninit → s.eng.busy = false →
    exec (.reqw b) s = .next { s with eng := { s.eng with busy := true, op := .write, sh := b } }

/-- R103: a read is queued. With the driver not attached (log entry 13). -/
def Obligations.RequestReadQueues : Prop :=
  ∀ s : State,
    s.drv.dstate = .dUninit → s.eng.bstate ≠ .bUninit → s.eng.busy = false →
    exec .reqr s = .next { s with eng := { s.eng with busy := true, op := .read } }

/-- R107: a request while `busy` = 1 has no meaning, and it is the only one of the bound engine that has none. The
refusal is the spec's own decision (spec/92_eei_decisions.md D25; log entry 14). -/
def Obligations.RequestWhileBusyIsRefused : Prop :=
  ∀ (s : State) (b : Byte),
    s.drv.dstate = .dUninit → s.eng.bstate ≠ .bUninit → s.eng.busy = true →
    exec (.reqw b) s = .refused .requestWhileBusy ∧ exec .reqr s = .refused .requestWhileBusy

/-- R106: while no line is bound requests and steps change nothing, `ISBUSY` returns 0 and `TAKE` returns `rx`. The
spec's own decision (spec/92_eei_decisions.md D13). -/
def Obligations.UnboundEngineDoesNothing : Prop :=
  ∀ (s : State) (b : Byte),
    EngineInv s → s.drv.dstate = .dUninit → s.eng.bstate = .bUninit →
    exec (.reqw b) s = .next s ∧ exec .reqr s = .next s ∧ exec .step s = .next s ∧
    exec .isBusy s = .next { s with result := .bit false } ∧
    exec .take s = .next { s with result := .byte s.eng.rx }

/-- R104: `ISBUSY` returns `busy` and writes nothing (`result` is the model's port for the value, log entry 7). -/
def Obligations.IsBusyReturnsBusy : Prop :=
  ∀ s : State, exec .isBusy s = .next { s with result := .bit s.eng.busy }

/-- R105: `TAKE` returns `rx` and does not remove it. Outside the valid window that is the spec's own decision
(spec/92_eei_decisions.md D15; log entry 16). -/
def Obligations.TakeReturnsTheReceiveByte : Prop :=
  ∀ s : State, exec .take s = .next { s with result := .byte s.eng.rx }

/-- R108: `STEP` evaluates exactly the rule `bstate` selects, once. With the driver not attached (log entry 13). -/
def Obligations.StepOperationEvaluatesTheSelectedRule : Prop :=
  ∀ s : State, s.drv.dstate = .dUninit →
    ∃ t, exec .step s = .next t ∧ exec s.eng.bstate.transition s = .next t

/-- spec/93_implementation_defined.md U13: while the driver is attached the engine's operations are refused from
outside; `ISBUSY` and `TAKE` are harmless. The refusal is the model's choice (log entry 13). -/
def Obligations.AttachedDriverOwnsTheEngine : Prop :=
  ∀ (s : State) (c d : LineRef) (b : Byte), s.drv.dstate ≠ .dUninit →
    exec (.assign c d) s = .refused .engineOwnedByDriver ∧
    exec (.reqw b) s = .refused .engineOwnedByDriver ∧
    exec .reqr s = .refused .engineOwnedByDriver ∧
    exec .step s = .refused .engineOwnedByDriver ∧
    exec .isBusy s = .next { s with result := .bit s.eng.busy } ∧
    exec .take s = .next { s with result := .byte s.eng.rx }

/-- Log entry 8: a transition that the state tag does not select is not evaluated and changes nothing. The model's
choice. -/
def Obligations.UnselectedTransitionChangesNothing : Prop :=
  (∀ (q : BusState) (s : State), s.eng.bstate ≠ q → exec q.transition s = .next s) ∧
  (∀ (q : DrvState) (s : State), s.drv.dstate ≠ q → exec q.transition s = .next s)

-- Engine transitions

/-- R110. -/
def Obligations.UninitTransitionDoesNothing : Prop :=
  ∀ s : State, s.eng.bstate = .bUninit → exec .bUninit s = .next s

/-- R109: a queued request is dispatched; with `busy` = 0 nothing changes. Where `cnt` and `par` are cleared is the
spec's own decision (spec/92_eei_decisions.md D9; log entry 27). -/
def Obligations.IdleDispatchesTheQueuedRequest : Prop :=
  ∀ s : State, s.eng.bstate = .bIdle →
    (s.eng.busy = true → s.eng.op = .write →
      exec .bIdle s = .next { s with
        eng := { s.eng with t := s.env.now, cnt := 0#3, par := false, bstate := .wSettle }
        modes := setModeAt (setModeAt s.modes s.eng.clockLine .released) s.eng.dataLine .released }) ∧
    (s.eng.busy = true → s.eng.op = .read →
      exec .bIdle s = .next { s with
        eng := { s.eng with t := s.env.now, bstate := .rFreeDelay }
        modes := setModeAt (setModeAt s.modes s.eng.clockLine .released) s.eng.dataLine .released }) ∧
    (s.eng.busy = false → exec .bIdle s = .next s)

/-- R120, R121, R122, R128: the timed windows of a write. -/
def Obligations.TimedWindowsOfAWrite : Prop :=
  ∀ s : State,
    (s.eng.bstate = .wSettle → exec .wSettle s = .next (if 300 < (s.env.now - s.eng.t).toNat then
      { s with eng := { s.eng with t := s.env.now, bstate := .wInhibit }
               modes := setModeAt s.modes s.eng.clockLine .assertedLow } else s)) ∧
    (s.eng.bstate = .wInhibit → exec .wInhibit s = .next (if 300 < (s.env.now - s.eng.t).toNat then
      { s with eng := { s.eng with t := s.env.now, bstate := .wStart }
               modes := setModeAt s.modes s.eng.dataLine .assertedLow } else s)) ∧
    (s.eng.bstate = .wStart → exec .wStart s = .next (if 10 < (s.env.now - s.eng.t).toNat then
      { s with eng := { s.eng with bstate := .wDevClk }
               modes := setModeAt s.modes s.eng.clockLine .released } else s)) ∧
    (s.eng.bstate = .wStopDelay → exec .wStopDelay s = .next (if 50 < (s.env.now - s.eng.t).toNat then
      { s with eng := { s.eng with bstate := .wStopClkLow } } else s))

/-- R123: at the device's first clock-low the first data bit goes on the line. The polarity is the spec's own
decision (spec/92_eei_decisions.md D17). -/
def Obligations.DeviceTakesOverClocking : Prop :=
  ∀ s : State, s.eng.bstate = .wDevClk →
    exec .wDevClk s = .next (if clockLow s then
      { s with eng := { s.eng with bstate := .wBitRise }
               modes := setModeAt s.modes s.eng.dataLine
                 (if s.eng.sh.getLsbD 0 then .released else .assertedLow) } else s)

/-- R124, R126, R129: waits of a write that change nothing but the tag. -/
def Obligations.ClockWaitsOfAWrite : Prop :=
  ∀ s : State,
    (s.eng.bstate = .wBitRise → exec .wBitRise s = .next (if clockHigh s then
      { s with eng := { s.eng with bstate := .wBitFall } } else s)) ∧
    (s.eng.bstate = .wParRise → exec .wParRise s = .next (if clockHigh s then
      { s with eng := { s.eng with bstate := .wParFall } } else s)) ∧
    (s.eng.bstate = .wStopClkLow → exec .wStopClkLow s = .next (if clockLow s then
      { s with eng := { s.eng with bstate := .wStopBothHigh } } else s))

/-- R125: the completed bit goes into `par` and out of `sh`; then the next data bit, or after the eighth the parity.
Parity polarity, wrap and shift are the spec's own decisions (spec/92_eei_decisions.md D5, D7, D8; log entry 19). -/
def Obligations.DataBitOfAWriteCompletes : Prop :=
  ∀ s : State, s.eng.bstate = .wBitFall →
    (¬ clockLow s → exec .wBitFall s = .next s) ∧
    (clockLow s → s.eng.cnt = 7#3 →
      exec .wBitFall s = .next { s with
        eng := { s.eng with par := s.eng.par ^^ s.eng.sh.getLsbD 0, sh := s.eng.sh >>> 1, cnt := 0#3,
                            bstate := .wParRise }
        modes := setModeAt s.modes s.eng.dataLine
          (if s.eng.par ^^ s.eng.sh.getLsbD 0 then .released else .assertedLow) }) ∧
    (clockLow s → s.eng.cnt ≠ 7#3 →
      exec .wBitFall s = .next { s with
        eng := { s.eng with par := s.eng.par ^^ s.eng.sh.getLsbD 0, sh := s.eng.sh >>> 1, cnt := s.eng.cnt + 1#3,
                            bstate := .wBitRise }
        modes := setModeAt s.modes s.eng.dataLine
          (if s.eng.sh.getLsbD 1 then .released else .assertedLow) })

/-- R127: at the device's clock-low the data line is released as the stop bit. -/
def Obligations.ParityCellOfAWriteEnds : Prop :=
  ∀ s : State, s.eng.bstate = .wParFall →
    exec .wParFall s = .next (if clockLow s then
      { s with eng := { s.eng with t := s.env.now, bstate := .wStopDelay }
               modes := setModeAt s.modes s.eng.dataLine .released } else s)

/-- R130: both lines high in the one sample complete the write: the clock is held low and `busy` clears. That one
sample must see both is the spec's own decision (spec/92_eei_decisions.md D31). -/
def Obligations.BothLinesHighCompleteAWrite : Prop :=
  ∀ s : State, s.eng.bstate = .wStopBothHigh →
    exec .wStopBothHigh s = .next (if clockHigh s ∧ dataHigh s then
      { s with eng := { s.eng with busy := false, bstate := .bIdle }
               modes := setModeAt s.modes s.eng.clockLine .assertedLow } else s)

/-- R140, R142: the timed windows of a read. -/
def Obligations.TimedWindowsOfARead : Prop :=
  ∀ s : State,
    (s.eng.bstate = .rFreeDelay → exec .rFreeDelay s = .next (if 50 < (s.env.now - s.eng.t).toNat then
      { s with eng := { s.eng with bstate := .rStartLow } } else s)) ∧
    (s.eng.bstate = .rStartSettle → exec .rStartSettle s = .next (if 5 < (s.env.now - s.eng.t).toNat then
      { s with eng := { s.eng with bstate := .rStartRise } } else s))

/-- R141, R143: the start cell of a read. That `rx` is cleared is the spec's own decision (spec/92_eei_decisions.md
D32). -/
def Obligations.StartCellOfARead : Prop :=
  ∀ s : State,
    (s.eng.bstate = .rStartLow → exec .rStartLow s = .next (if clockLow s then
      { s with eng := { s.eng with t := s.env.now, bstate := .rStartSettle } } else s)) ∧
    (s.eng.bstate = .rStartRise → exec .rStartRise s = .next (if clockHigh s then
      { s with eng := { s.eng with cnt := 0#3, rx := 0x00#8, bstate := .rBitLow } } else s))

/-- R144: bit `cnt` of `rx` takes the level of the data line, every other bit keeps its value. -/
def Obligations.DataBitOfAReadIsSampledOnce : Prop :=
  ∀ s : State, s.eng.bstate = .rBitLow →
    (¬ clockLow s → exec .rBitLow s = .next s) ∧
    (clockLow s → ∃ r : Byte,
      exec .rBitLow s = .next { s with eng := { s.eng with rx := r, bstate := .rBitHigh } } ∧
      ∀ j : Nat, j < 8 → r.getLsbD j = if j = s.eng.cnt.toNat then decide (dataHigh s) else s.eng.rx.getLsbD j)

/-- R145: the counter wraps after the eighth bit. The wrap is the spec's own decision (spec/92_eei_decisions.md D7).
-/
def Obligations.BitOfAReadIsCounted : Prop :=
  ∀ s : State, s.eng.bstate = .rBitHigh →
    exec .rBitHigh s = .next (if clockHigh s then
      (if s.eng.cnt = 7#3 then { s with eng := { s.eng with cnt := 0#3, bstate := .rParLow } }
       else { s with eng := { s.eng with cnt := s.eng.cnt + 1#3, bstate := .rBitLow } }) else s)

/-- R146, R147, R148: the parity cell and the stop cell are consumed, nothing but the tag changes. -/
def Obligations.ParityAndStopCellsAreNotChecked : Prop :=
  ∀ s : State,
    (s.eng.bstate = .rParLow → exec .rParLow s = .next (if clockLow s then
      { s with eng := { s.eng with bstate := .rParHigh } } else s)) ∧
    (s.eng.bstate = .rParHigh → exec .rParHigh s = .next (if clockHigh s then
      { s with eng := { s.eng with bstate := .rStopLow } } else s)) ∧
    (s.eng.bstate = .rStopLow → exec .rStopLow s = .next (if clockLow s then
      { s with eng := { s.eng with bstate := .rStopHigh } } else s))

/-- R149: the final clock-high completes the read: the clock is asserted low and `busy` clears. -/
def Obligations.FinalClockHighCompletesARead : Prop :=
  ∀ s : State, s.eng.bstate = .rStopHigh →
    exec .rStopHigh s = .next (if clockHigh s then
      { s with eng := { s.eng with busy := false, bstate := .bIdle }
               modes := setModeAt s.modes s.eng.clockLine .assertedLow } else s)

-- Driver operations

/-- R160, R242: `ATTACH` in any state; the data collected so far is kept. What is kept is the spec's own decision
(spec/92_eei_decisions.md D13, D14; log entry 21). -/
def Obligations.AttachRestartsTheSequence : Prop :=
  ∀ (s : State) (c d : LineRef),
    (lineValid s.platform c d = true →
      exec (.attach c d) s = .next { s with
        eng := { bstate := .bIdle, busy := false, op := .write, sh := 0x00#8, cnt := 0#3, par := false, rx := 0x00#8,
                 t := 0#32, clockLine := c, dataLine := d }
        drv := { s.drv with dt := s.env.now, dstate := .dAttachSettle }
        modes := setModeAt (setModeAt s.modes c .released) d .released }) ∧
    (lineValid s.platform c d = false →
      exec (.attach c d) s = .next { s with
        eng := { bstate := .bUninit, busy := false, op := .write, sh := 0x00#8, cnt := 0#3, par := false,
                 rx := 0x00#8, t := 0#32, clockLine := none, dataLine := none }
        drv := { s.drv with dstate := .dUninit } })

/-- R161: the engine's transition, then the driver's on the state it left. -/
def Obligations.AdvanceIsEngineThenDriver : Prop :=
  ∀ s : State, ∃ u, exec s.eng.bstate.transition s = .next u ∧ u.drv = s.drv ∧ u.env = s.env ∧
    exec .advance s = exec s.drv.dstate.transition u

/-- R163: `POSITION` returns both components and writes nothing. -/
def Obligations.PositionReturnsBothComponents : Prop :=
  ∀ s : State, exec .position s = .next { s with result := .pair s.drv.posx s.drv.posy }

/-- R197, R259: in `D_POLL_WAIT` before the interval has elapsed `ADVANCE` is the identity. -/
def Obligations.IdleAdvanceChangesNothing : Prop :=
  ∀ s : State, Inv s → s.drv.dstate = .dPollWait →
    (s.env.now - s.drv.dt).toNat ≤ s.drv.pollInterval.toNat → exec .advance s = .next s

-- Driver transitions

/-- R162. -/
def Obligations.UnattachedDriverDoesNothing : Prop :=
  ∀ s : State, s.drv.dstate = .dUninit → exec .dUninit s = .next s

/-- R165, R166, R167, R169, R171, R173, R175, R177, R190, R191: the driver states whose completed operation is followed
by a read; no byte is looked at. -/
def Obligations.DriverIssuesTheNextRead : Prop :=
  ∀ row ∈ ([(.dResetCmd, .dResetAck), (.dResetAck, .dResetB1), (.dResetB1, .dResetB2), (.dRemoteCmd, .dRemoteAck),
      (.dRateCmd, .dRateCmdAck), (.dRateVal, .dRateValAck), (.dResCmd, .dResCmdAck), (.dResVal, .dResValAck),
      (.dPollCmd, .dPollAck), (.dPollAck, .dPollStatus)] : List (DrvState × DrvState)),
    ∀ s : State, s.drv.dstate = row.1 →
      (s.eng.busy = true → exec row.1.transition s = .next s) ∧
      (s.eng.busy = false → s.eng.bstate ≠ .bUninit →
        exec row.1.transition s = .next { s with
          eng := { s.eng with busy := true, op := .read }
          drv := { s.drv with dstate := row.2 } })

/-- R168, R170, R172, R174, R176: the driver states whose completed read is followed by a write, and the byte. -/
def Obligations.DriverIssuesTheNextWrite : Prop :=
  ∀ row ∈ ([(.dResetB2, 0xF0#8, .dRemoteCmd), (.dRemoteAck, 0xF3#8, .dRateCmd), (.dRateCmdAck, 0xC8#8, .dRateVal),
      (.dRateValAck, 0xE8#8, .dResCmd), (.dResCmdAck, 0x03#8, .dResVal)] : List (DrvState × Byte × DrvState)),
    ∀ s : State, s.drv.dstate = row.1 →
      (s.eng.busy = true → exec row.1.transition s = .next s) ∧
      (s.eng.busy = false → s.eng.bstate ≠ .bUninit →
        exec row.1.transition s = .next { s with
          eng := { s.eng with busy := true, op := .write, sh := row.2.1 }
          drv := { s.drv with dstate := row.2.2 } })

/-- R164, R179, R197: the timed waits of the driver end in a write. -/
def Obligations.TimedWaitsOfTheDriver : Prop :=
  ∀ s : State, s.eng.bstate ≠ .bUninit → s.eng.busy = false →
    (s.drv.dstate = .dAttachSettle →
      exec .dAttachSettle s = .next (if 100 < (s.env.now - s.drv.dt).toNat then
        { s with eng := { s.eng with busy := true, op := .write, sh := 0xFF#8 }
                 drv := { s.drv with dstate := .dResetCmd } } else s)) ∧
    (s.drv.dstate = .dInitSettle →
      exec .dInitSettle s = .next (if 100 < (s.env.now - s.drv.dt).toNat then
        { s with eng := { s.eng with busy := true, op := .write, sh := 0xEB#8 }
                 drv := { s.drv with dstate := .dPollCmd } } else s)) ∧
    (s.drv.dstate = .dPollWait →
      exec .dPollWait s = .next (if s.drv.pollInterval.toNat < (s.env.now - s.drv.dt).toNat then
        { s with eng := { s.eng with busy := true, op := .write, sh := 0xEB#8 }
                 drv := { s.drv with dstate := .dPollCmd } } else s))

/-- R178: the last acknowledgement starts the settle and issues nothing. -/
def Obligations.LastAcknowledgementStartsTheSettle : Prop :=
  ∀ s : State, s.drv.dstate = .dResValAck →
    exec .dResValAck s = .next (if s.eng.busy then s else
      { s with drv := { s.drv with dt := s.env.now, dstate := .dInitSettle } })

/-- R192, R193: the status byte and the X byte are taken as received. -/
def Obligations.StatusAndXBytesAreTaken : Prop :=
  ∀ s : State, s.eng.bstate ≠ .bUninit →
    (s.drv.dstate = .dPollStatus → exec .dPollStatus s = .next (if s.eng.busy then s else
      { s with eng := { s.eng with busy := true, op := .read }
               drv := { s.drv with status := s.eng.rx, dstate := .dPollX } })) ∧
    (s.drv.dstate = .dPollX → exec .dPollX s = .next (if s.eng.busy then s else
      { s with eng := { s.eng with busy := true, op := .read }
               drv := { s.drv with rawx := s.eng.rx, dstate := .dPollY } }))

/-- R194, R195, R196: the Y byte completes the sample: both deltas are added whatever the overflow bits, the flag is
their or, and the interval starts. -/
def Obligations.YByteCompletesTheSample : Prop :=
  ∀ s : State, s.drv.dstate = .dPollY →
    (s.eng.busy = true → exec .dPollY s = .next s) ∧
    (s.eng.busy = false → exec .dPollY s = .next { s with
      drv := { s.drv with
        rawy := s.eng.rx
        posx := s.drv.posx + (if s.drv.status.getLsbD 4 then (s.drv.rawx.toNat : Int) - 256 else s.drv.rawx.toNat)
        posy := s.drv.posy + (if s.drv.status.getLsbD 5 then (s.eng.rx.toNat : Int) - 256 else s.eng.rx.toNat)
        ovf := s.drv.status.getLsbD 6 || s.drv.status.getLsbD 7
        dt := s.env.now
        dstate := .dPollWait } })

/-- R70, R71, R163, R192 to R196: a report that the driver waits for in `D_POLL_STATUS`, its read queued or before its
start bit, is taken byte by byte and stored as received; each delta is the 9-bit two's-complement value of sign bit and
byte, in -256 .. 255, and bits 3:0 of the status byte have no effect but to be stored. After all of its `ADVANCE`s but the last
the driver is in `D_POLL_Y` with the position as it was; the last goes to `D_POLL_WAIT` and moves it. A report that is not awaited changes nothing. That the row
runs as the whole report, its timing, and the start, parity and stop cells of its frames are the model's choice (log
entries 10 and 12). -/
def Obligations.ReportDecodesNineBitDeltas : Prop :=
  ∀ (status x y : Byte) (s : State),
    (∀ c d : LineId, s.drv.dstate = .dPollStatus → s.eng.clockLine = some c → s.eng.dataLine = some d → c ≠ d →
      s.eng.busy = true → s.eng.op = .read →
      (s.eng.bstate = .bIdle ∨ (s.eng.bstate = .rFreeDelay ∨ s.eng.bstate = .rStartLow) ∧
        modeOf s.modes c = some .released ∧ modeOf s.modes d = some .released) →
      ∃ t, exec (.reportStatus status x y) s = .next t ∧
        t = { s with
          eng := { s.eng with bstate := .bIdle, busy := false, rx := y, cnt := 0#3, t := t.eng.t }
          drv := { s.drv with dstate := .dPollWait, status := status, rawx := x, rawy := y, posx := t.drv.posx,
                              posy := t.drv.posy, ovf := status.getLsbD 6 || status.getLsbD 7, dt := t.env.now }
          modes := t.modes
          env := t.env } ∧
        t.drv.posx - s.drv.posx = (BitVec.ofBool (status.getLsbD 4) ++ x).toInt ∧
        t.drv.posy - s.drv.posy = (BitVec.ofBool (status.getLsbD 5) ++ y).toInt ∧
        -256 ≤ t.drv.posx - s.drv.posx ∧ t.drv.posx - s.drv.posx ≤ 255 ∧
        -256 ≤ t.drv.posy - s.drv.posy ∧ t.drv.posy - s.drv.posy ≤ 255 ∧
        modeOf t.modes c = some .assertedLow ∧ modeOf t.modes d = some .released ∧
        (∀ l, l ≠ c → l ≠ d → modeOf t.modes l = modeOf s.modes l) ∧
        (∀ ps last, reportPhases status x y = ps ++ [last] →
          ∃ u, runAdvances ps s = .next u ∧ u.drv = { s.drv with dstate := .dPollY, status := status, rawx := x } ∧
            exec .advance (samplePhase last u) = .next t)) ∧
    (¬ (s.drv.dstate = .dPollStatus ∧ s.eng.busy = true ∧ s.eng.op = .read ∧
        (s.eng.bstate = .bIdle ∨ s.eng.bstate = .rFreeDelay ∨ s.eng.bstate = .rStartLow)) →
      exec (.reportStatus status x y) s = .next s)

-- Command bytes and frames

/-- R68, log entry 9: at its place in the sequence a command byte is the transition that writes it. The model's
choice. -/
def Obligations.CommandByteAtItsPlaceIsWrittenByTheDriver : Prop :=
  ∀ row ∈ ([(.cmdReset, .dAttachSettle), (.cmdRemoteMode, .dResetB2), (.cmdSetRate, .dRemoteAck),
      (.argRate200, .dRateCmdAck), (.cmdSetResolution, .dRateValAck), (.argResolution3, .dResCmdAck),
      (.cmdRequestData, .dInitSettle), (.cmdRequestData, .dPollWait)] : List (Instr × DrvState)),
    ∀ s : State, s.drv.dstate = row.2 → exec row.1 s = exec row.2.transition s

/-- R68, R102, R106, R107, log entries 9 and 13: on an engine that stands alone a command byte is the request of its
value, with the request's own cases; with the driver attached and the byte not at its place it is refused. The
model's choice. -/
def Obligations.CommandByteOutOfTheSequenceIsItsRequest : Prop :=
  ∀ row ∈ ([(.cmdReset, 0xFF#8, [.dAttachSettle]), (.cmdRemoteMode, 0xF0#8, [.dResetB2]),
      (.cmdSetRate, 0xF3#8, [.dRemoteAck]), (.argRate200, 0xC8#8, [.dRateCmdAck]),
      (.cmdSetResolution, 0xE8#8, [.dRateValAck]), (.argResolution3, 0x03#8, [.dResCmdAck]),
      (.cmdRequestData, 0xEB#8, [.dInitSettle, .dPollWait])] : List (Instr × Byte × List DrvState)),
    ∀ s : State,
      (s.drv.dstate = .dUninit → s.eng.bstate ≠ .bUninit → s.eng.busy = false →
        exec row.1 s = .next { s with eng := { s.eng with busy := true, op := .write, sh := row.2.1 } }) ∧
      (s.drv.dstate = .dUninit → s.eng.bstate ≠ .bUninit → s.eng.busy = true →
        exec row.1 s = .refused .requestWhileBusy) ∧
      (s.drv.dstate = .dUninit → s.eng.bstate = .bUninit → exec row.1 s = .next s) ∧
      (s.drv.dstate ≠ .dUninit → s.drv.dstate ∉ row.2.2 → exec row.1 s = .refused .engineOwnedByDriver)

/-- R131, R132, R72: a frame to the device ends in the state of a completed write, whatever the byte, from an idle
engine that stands alone or from a queued write. The time of the steps is the model's (log entry 10), so `t` and the
last sample are left open. -/
def Obligations.FrameToTheDeviceCompletes : Prop :=
  ∀ (s : State) (b : Byte) (x y : LineId),
    s.eng.bstate = .bIdle → s.eng.clockLine = some x → s.eng.dataLine = some y → x ≠ y →
    (s.drv.dstate = .dUninit ∧ s.eng.busy = false ∨ s.eng.busy = true ∧ s.eng.op = .write ∧ s.eng.sh = b) →
    ∃ u, exec (.frameH2D b (parityOfByte b)) s = .next u ∧
      u = { s with
        eng := { s.eng with busy := false, op := .write, sh := 0x00#8, cnt := 0#3, par := parityOfByte b,
                            t := u.eng.t }
        modes := u.modes
        env := u.env } ∧
      modeOf u.modes x = some .assertedLow ∧ modeOf u.modes y = some .released ∧
      ∀ l, l ≠ x → l ≠ y → modeOf u.modes l = modeOf s.modes l

/-- R150, R151, R72, R213: a frame from the device ends in the state of a completed read with the eight data cells in
`rx`, whatever its start, parity and stop cells: from an idle engine that stands alone, from a queued read, or from a
read that waits for its start bit with both lines released; `sh` and `par` are unchanged. The time of the steps is the
model's (log entry 10). -/
def Obligations.FrameFromTheDeviceIsReceived : Prop :=
  ∀ (s : State) (start : Bool) (b : Byte) (p stop : Bool) (x y : LineId),
    s.eng.clockLine = some x → s.eng.dataLine = some y → x ≠ y →
    (s.eng.bstate = .bIdle ∧ s.drv.dstate = .dUninit ∧ s.eng.busy = false ∨
      s.eng.bstate = .bIdle ∧ s.eng.busy = true ∧ s.eng.op = .read ∨
      (s.eng.bstate = .rFreeDelay ∨ s.eng.bstate = .rStartLow) ∧ s.eng.busy = true ∧ s.eng.op = .read ∧
        modeOf s.modes x = some .released ∧ modeOf s.modes y = some .released) →
    ∃ u, exec (.frameD2H start b p stop) s = .next u ∧
      u = { s with
        eng := { s.eng with bstate := .bIdle, busy := false, op := .read, rx := b, cnt := 0#3, t := u.eng.t }
        modes := u.modes
        env := u.env
        result := .byte b } ∧
      modeOf u.modes x = some .assertedLow ∧ modeOf u.modes y = some .released ∧
      ∀ l, l ≠ x → l ≠ y → modeOf u.modes l = modeOf s.modes l

/-- R66, log entry 11: a frame of the block with another parity cell is not sent. Log entries 10, 13, 14: a frame
that neither finds its own operation queued (a read may also wait for its start bit) nor can begin one is refused as
the request is; on an engine with no line bound nothing but the sample changes. The model's choices. -/
def Obligations.FrameThatCannotBeginIsRefused : Prop :=
  ∀ (s : State) (start : Bool) (b : Byte) (p stop : Bool),
    exec (.frameH2D b (!parityOfByte b)) s = .refused .frameParity ∧
    (¬ (s.eng.bstate = .bIdle ∧ s.eng.busy = true ∧ s.eng.op = .write ∧ s.eng.sh = b) →
      (s.drv.dstate ≠ .dUninit → exec (.frameH2D b (parityOfByte b)) s = .refused .engineOwnedByDriver) ∧
      (s.drv.dstate = .dUninit → s.eng.bstate ≠ .bUninit → s.eng.busy = true →
        exec (.frameH2D b (parityOfByte b)) s = .refused .requestWhileBusy)) ∧
    (¬ ((s.eng.bstate = .bIdle ∨ s.eng.bstate = .rFreeDelay ∨ s.eng.bstate = .rStartLow) ∧ s.eng.busy = true ∧
        s.eng.op = .read) →
      (s.drv.dstate ≠ .dUninit → exec (.frameD2H start b p stop) s = .refused .engineOwnedByDriver) ∧
      (s.drv.dstate = .dUninit → s.eng.bstate ≠ .bUninit → s.eng.busy = true →
        exec (.frameD2H start b p stop) s = .refused .requestWhileBusy)) ∧
    (s.drv.dstate = .dUninit → s.eng.bstate = .bUninit →
      (∃ e, exec (.frameH2D b (parityOfByte b)) s = .next { s with env := e }) ∧
      ∃ e, exec (.frameD2H start b p stop) s = .next { s with env := e, result := .byte s.eng.rx })

-- Whole-machine rules

/-- R26, R27, R163, R196: the position and the overflow flag are changed only by the decode: in `D_POLL_Y`, or within a
report that the driver waits for in `D_POLL_STATUS`, whose last `ADVANCE` is that transition (log entry 12). -/
def Obligations.OnlyTheDecodeMovesThePosition : Prop :=
  ∀ (i : Instr) (s t : State), exec i s = .next t →
    (t.drv.posx ≠ s.drv.posx ∨ t.drv.posy ≠ s.drv.posy ∨ t.drv.ovf ≠ s.drv.ovf) →
    ((i = .advance ∨ i = .dPollY) ∧ s.drv.dstate = .dPollY ∧ t.drv.dstate = .dPollWait) ∨
    ((∃ status x y, i = .reportStatus status x y) ∧ s.drv.dstate = .dPollStatus ∧ s.eng.busy = true ∧
      s.eng.op = .read)

/-- R20, R57, R100 (b): no instruction changes the drive mode of a line that is neither bound nor being bound. R22 (e),
R130, R149: from `B_IDLE` to `B_IDLE` no instruction changes any drive mode but `ASSIGN` and `ATTACH`, and the whole
frames and reports, which dispatch (log entries 10 and 12). -/
def Obligations.OtherLinesAreNeverTouched : Prop :=
  (∀ (i : Instr) (s t : State) (l : LineId), exec i s = .next t →
    some l ≠ s.eng.clockLine → some l ≠ s.eng.dataLine →
    (∀ c d, i = .assign c d ∨ i = .attach c d → some l ≠ c ∧ some l ≠ d) →
    modeOf t.modes l = modeOf s.modes l) ∧
  (∀ (i : Instr) (s t : State), exec i s = .next t → s.eng.bstate = .bIdle → t.eng.bstate = .bIdle →
    (∀ c d, i ≠ .assign c d ∧ i ≠ .attach c d) → (∀ b p, i ≠ .frameH2D b p) →
    (∀ start b p stop, i ≠ .frameD2H start b p stop) → (∀ status x y, i ≠ .reportStatus status x y) →
    t.modes = s.modes)

/-- R28, R31, R20: no instruction changes the polling interval, and the lines bound change only by `ASSIGN` and `ATTACH`.
That the interval is a constant is the spec's own decision (spec/92_eei_decisions.md D21; log entry 22). The clauses on
`calls` and on `platform`, the calls to come and the platform's predicate, are the model's (log entries 1 and 5). -/
def Obligations.ParametersAreNeverWritten : Prop :=
  ∀ (i : Instr) (s t : State), exec i s = .next t →
    t.drv.pollInterval = s.drv.pollInterval ∧ t.platform = s.platform ∧ t.calls = s.calls ∧
    ((∀ c d, i ≠ .assign c d ∧ i ≠ .attach c d) →
      t.eng.clockLine = s.eng.clockLine ∧ t.eng.dataLine = s.eng.dataLine)
end

