-- ==== Sys2Proof/Laws/State.lean ====
section
/-! SUPPORT. One lemma per field of State for every named update: what it writes and what it leaves (R8). -/

namespace Sys2Proof.Machine

-- One after the other: side by side these many small proofs would each hold a thread.
set_option Elab.async false

@[simp] theorem setBstate_eng (q : BusState) (s : State) : (setBstate q s).eng = { s.eng with bstate := q } := rfl
@[simp] theorem setBstate_drv (q : BusState) (s : State) : (setBstate q s).drv = s.drv := rfl
@[simp] theorem setBstate_modes (q : BusState) (s : State) : (setBstate q s).modes = s.modes := rfl
@[simp] theorem setBstate_calls (q : BusState) (s : State) : (setBstate q s).calls = s.calls := rfl
@[simp] theorem setBstate_env (q : BusState) (s : State) : (setBstate q s).env = s.env := rfl
@[simp] theorem setBstate_result (q : BusState) (s : State) : (setBstate q s).result = s.result := rfl
@[simp] theorem setBstate_platform (q : BusState) (s : State) : (setBstate q s).platform = s.platform := rfl

@[simp] theorem setBusy_eng (b : Bool) (s : State) : (setBusy b s).eng = { s.eng with busy := b } := rfl
@[simp] theorem setBusy_drv (b : Bool) (s : State) : (setBusy b s).drv = s.drv := rfl
@[simp] theorem setBusy_modes (b : Bool) (s : State) : (setBusy b s).modes = s.modes := rfl
@[simp] theorem setBusy_calls (b : Bool) (s : State) : (setBusy b s).calls = s.calls := rfl
@[simp] theorem setBusy_env (b : Bool) (s : State) : (setBusy b s).env = s.env := rfl
@[simp] theorem setBusy_result (b : Bool) (s : State) : (setBusy b s).result = s.result := rfl
@[simp] theorem setBusy_platform (b : Bool) (s : State) : (setBusy b s).platform = s.platform := rfl

@[simp] theorem setOp_eng (k : OpKind) (s : State) : (setOp k s).eng = { s.eng with op := k } := rfl
@[simp] theorem setOp_drv (k : OpKind) (s : State) : (setOp k s).drv = s.drv := rfl
@[simp] theorem setOp_modes (k : OpKind) (s : State) : (setOp k s).modes = s.modes := rfl
@[simp] theorem setOp_calls (k : OpKind) (s : State) : (setOp k s).calls = s.calls := rfl
@[simp] theorem setOp_env (k : OpKind) (s : State) : (setOp k s).env = s.env := rfl
@[simp] theorem setOp_result (k : OpKind) (s : State) : (setOp k s).result = s.result := rfl
@[simp] theorem setOp_platform (k : OpKind) (s : State) : (setOp k s).platform = s.platform := rfl

@[simp] theorem setSh_eng (v : Byte) (s : State) : (setSh v s).eng = { s.eng with sh := v } := rfl
@[simp] theorem setSh_drv (v : Byte) (s : State) : (setSh v s).drv = s.drv := rfl
@[simp] theorem setSh_modes (v : Byte) (s : State) : (setSh v s).modes = s.modes := rfl
@[simp] theorem setSh_calls (v : Byte) (s : State) : (setSh v s).calls = s.calls := rfl
@[simp] theorem setSh_env (v : Byte) (s : State) : (setSh v s).env = s.env := rfl
@[simp] theorem setSh_result (v : Byte) (s : State) : (setSh v s).result = s.result := rfl
@[simp] theorem setSh_platform (v : Byte) (s : State) : (setSh v s).platform = s.platform := rfl

@[simp] theorem setCnt_eng (v : BitVec 3) (s : State) : (setCnt v s).eng = { s.eng with cnt := v } := rfl
@[simp] theorem setCnt_drv (v : BitVec 3) (s : State) : (setCnt v s).drv = s.drv := rfl
@[simp] theorem setCnt_modes (v : BitVec 3) (s : State) : (setCnt v s).modes = s.modes := rfl
@[simp] theorem setCnt_calls (v : BitVec 3) (s : State) : (setCnt v s).calls = s.calls := rfl
@[simp] theorem setCnt_env (v : BitVec 3) (s : State) : (setCnt v s).env = s.env := rfl
@[simp] theorem setCnt_result (v : BitVec 3) (s : State) : (setCnt v s).result = s.result := rfl
@[simp] theorem setCnt_platform (v : BitVec 3) (s : State) : (setCnt v s).platform = s.platform := rfl

@[simp] theorem setPar_eng (v : Bool) (s : State) : (setPar v s).eng = { s.eng with par := v } := rfl
@[simp] theorem setPar_drv (v : Bool) (s : State) : (setPar v s).drv = s.drv := rfl
@[simp] theorem setPar_modes (v : Bool) (s : State) : (setPar v s).modes = s.modes := rfl
@[simp] theorem setPar_calls (v : Bool) (s : State) : (setPar v s).calls = s.calls := rfl
@[simp] theorem setPar_env (v : Bool) (s : State) : (setPar v s).env = s.env := rfl
@[simp] theorem setPar_result (v : Bool) (s : State) : (setPar v s).result = s.result := rfl
@[simp] theorem setPar_platform (v : Bool) (s : State) : (setPar v s).platform = s.platform := rfl

@[simp] theorem setRx_eng (v : Byte) (s : State) : (setRx v s).eng = { s.eng with rx := v } := rfl
@[simp] theorem setRx_drv (v : Byte) (s : State) : (setRx v s).drv = s.drv := rfl
@[simp] theorem setRx_modes (v : Byte) (s : State) : (setRx v s).modes = s.modes := rfl
@[simp] theorem setRx_calls (v : Byte) (s : State) : (setRx v s).calls = s.calls := rfl
@[simp] theorem setRx_env (v : Byte) (s : State) : (setRx v s).env = s.env := rfl
@[simp] theorem setRx_result (v : Byte) (s : State) : (setRx v s).result = s.result := rfl
@[simp] theorem setRx_platform (v : Byte) (s : State) : (setRx v s).platform = s.platform := rfl

@[simp] theorem stampEngine_eng (s : State) : (stampEngine s).eng = { s.eng with t := s.env.now } := rfl
@[simp] theorem stampEngine_drv (s : State) : (stampEngine s).drv = s.drv := rfl
@[simp] theorem stampEngine_modes (s : State) : (stampEngine s).modes = s.modes := rfl
@[simp] theorem stampEngine_calls (s : State) : (stampEngine s).calls = s.calls := rfl
@[simp] theorem stampEngine_env (s : State) : (stampEngine s).env = s.env := rfl
@[simp] theorem stampEngine_result (s : State) : (stampEngine s).result = s.result := rfl
@[simp] theorem stampEngine_platform (s : State) : (stampEngine s).platform = s.platform := rfl

@[simp] theorem setLines_eng (c d : LineRef) (s : State) : (setLines c d s).eng =
    { s.eng with clockLine := c, dataLine := d } := rfl
@[simp] theorem setLines_drv (c d : LineRef) (s : State) : (setLines c d s).drv = s.drv := rfl
@[simp] theorem setLines_modes (c d : LineRef) (s : State) : (setLines c d s).modes = s.modes := rfl
@[simp] theorem setLines_calls (c d : LineRef) (s : State) : (setLines c d s).calls = s.calls := rfl
@[simp] theorem setLines_env (c d : LineRef) (s : State) : (setLines c d s).env = s.env := rfl
@[simp] theorem setLines_result (c d : LineRef) (s : State) : (setLines c d s).result = s.result := rfl
@[simp] theorem setLines_platform (c d : LineRef) (s : State) : (setLines c d s).platform = s.platform := rfl

@[simp] theorem setDstate_eng (q : DrvState) (s : State) : (setDstate q s).eng = s.eng := rfl
@[simp] theorem setDstate_drv (q : DrvState) (s : State) : (setDstate q s).drv = { s.drv with dstate := q } := rfl
@[simp] theorem setDstate_modes (q : DrvState) (s : State) : (setDstate q s).modes = s.modes := rfl
@[simp] theorem setDstate_calls (q : DrvState) (s : State) : (setDstate q s).calls = s.calls := rfl
@[simp] theorem setDstate_env (q : DrvState) (s : State) : (setDstate q s).env = s.env := rfl
@[simp] theorem setDstate_result (q : DrvState) (s : State) : (setDstate q s).result = s.result := rfl
@[simp] theorem setDstate_platform (q : DrvState) (s : State) : (setDstate q s).platform = s.platform := rfl

@[simp] theorem stampDriver_eng (s : State) : (stampDriver s).eng = s.eng := rfl
@[simp] theorem stampDriver_drv (s : State) : (stampDriver s).drv = { s.drv with dt := s.env.now } := rfl
@[simp] theorem stampDriver_modes (s : State) : (stampDriver s).modes = s.modes := rfl
@[simp] theorem stampDriver_calls (s : State) : (stampDriver s).calls = s.calls := rfl
@[simp] theorem stampDriver_env (s : State) : (stampDriver s).env = s.env := rfl
@[simp] theorem stampDriver_result (s : State) : (stampDriver s).result = s.result := rfl
@[simp] theorem stampDriver_platform (s : State) : (stampDriver s).platform = s.platform := rfl

@[simp] theorem setStatus_eng (v : Byte) (s : State) : (setStatus v s).eng = s.eng := rfl
@[simp] theorem setStatus_drv (v : Byte) (s : State) : (setStatus v s).drv = { s.drv with status := v } := rfl
@[simp] theorem setStatus_modes (v : Byte) (s : State) : (setStatus v s).modes = s.modes := rfl
@[simp] theorem setStatus_calls (v : Byte) (s : State) : (setStatus v s).calls = s.calls := rfl
@[simp] theorem setStatus_env (v : Byte) (s : State) : (setStatus v s).env = s.env := rfl
@[simp] theorem setStatus_result (v : Byte) (s : State) : (setStatus v s).result = s.result := rfl
@[simp] theorem setStatus_platform (v : Byte) (s : State) : (setStatus v s).platform = s.platform := rfl

@[simp] theorem setRawx_eng (v : Byte) (s : State) : (setRawx v s).eng = s.eng := rfl
@[simp] theorem setRawx_drv (v : Byte) (s : State) : (setRawx v s).drv = { s.drv with rawx := v } := rfl
@[simp] theorem setRawx_modes (v : Byte) (s : State) : (setRawx v s).modes = s.modes := rfl
@[simp] theorem setRawx_calls (v : Byte) (s : State) : (setRawx v s).calls = s.calls := rfl
@[simp] theorem setRawx_env (v : Byte) (s : State) : (setRawx v s).env = s.env := rfl
@[simp] theorem setRawx_result (v : Byte) (s : State) : (setRawx v s).result = s.result := rfl
@[simp] theorem setRawx_platform (v : Byte) (s : State) : (setRawx v s).platform = s.platform := rfl

@[simp] theorem setRawy_eng (v : Byte) (s : State) : (setRawy v s).eng = s.eng := rfl
@[simp] theorem setRawy_drv (v : Byte) (s : State) : (setRawy v s).drv = { s.drv with rawy := v } := rfl
@[simp] theorem setRawy_modes (v : Byte) (s : State) : (setRawy v s).modes = s.modes := rfl
@[simp] theorem setRawy_calls (v : Byte) (s : State) : (setRawy v s).calls = s.calls := rfl
@[simp] theorem setRawy_env (v : Byte) (s : State) : (setRawy v s).env = s.env := rfl
@[simp] theorem setRawy_result (v : Byte) (s : State) : (setRawy v s).result = s.result := rfl
@[simp] theorem setRawy_platform (v : Byte) (s : State) : (setRawy v s).platform = s.platform := rfl

@[simp] theorem decodeReportHeld_eng (s : State) : (decodeReportHeld s).eng = s.eng := rfl
@[simp] theorem decodeReportHeld_drv (s : State) : (decodeReportHeld s).drv =
    { s.drv with posx := s.drv.posx + deltaX s.drv, posy := s.drv.posy + deltaY s.drv, ovf := overflowOf s.drv.status } := rfl
@[simp] theorem decodeReportHeld_modes (s : State) : (decodeReportHeld s).modes = s.modes := rfl
@[simp] theorem decodeReportHeld_calls (s : State) : (decodeReportHeld s).calls = s.calls := rfl
@[simp] theorem decodeReportHeld_env (s : State) : (decodeReportHeld s).env = s.env := rfl
@[simp] theorem decodeReportHeld_result (s : State) : (decodeReportHeld s).result = s.result := rfl
@[simp] theorem decodeReportHeld_platform (s : State) : (decodeReportHeld s).platform = s.platform := rfl

@[simp] theorem release_eng (l : LineRef) (s : State) : (release l s).eng = s.eng := rfl
@[simp] theorem release_drv (l : LineRef) (s : State) : (release l s).drv = s.drv := rfl
@[simp] theorem release_modes (l : LineRef) (s : State) : (release l s).modes = setModeAt s.modes l .released := rfl
@[simp] theorem release_calls (l : LineRef) (s : State) : (release l s).calls = s.calls := rfl
@[simp] theorem release_env (l : LineRef) (s : State) : (release l s).env = s.env := rfl
@[simp] theorem release_result (l : LineRef) (s : State) : (release l s).result = s.result := rfl
@[simp] theorem release_platform (l : LineRef) (s : State) : (release l s).platform = s.platform := rfl

@[simp] theorem assertLow_eng (l : LineRef) (s : State) : (assertLow l s).eng = s.eng := rfl
@[simp] theorem assertLow_drv (l : LineRef) (s : State) : (assertLow l s).drv = s.drv := rfl
@[simp] theorem assertLow_modes (l : LineRef) (s : State) : (assertLow l s).modes =
    setModeAt s.modes l .assertedLow := rfl
@[simp] theorem assertLow_calls (l : LineRef) (s : State) : (assertLow l s).calls = s.calls := rfl
@[simp] theorem assertLow_env (l : LineRef) (s : State) : (assertLow l s).env = s.env := rfl
@[simp] theorem assertLow_result (l : LineRef) (s : State) : (assertLow l s).result = s.result := rfl
@[simp] theorem assertLow_platform (l : LineRef) (s : State) : (assertLow l s).platform = s.platform := rfl

@[simp] theorem driveData_eng (v : Bool) (s : State) : (driveData v s).eng = s.eng := rfl
@[simp] theorem driveData_drv (v : Bool) (s : State) : (driveData v s).drv = s.drv := rfl
@[simp] theorem driveData_modes (v : Bool) (s : State) : (driveData v s).modes =
    setModeAt s.modes s.eng.dataLine (modeOfBit v) := rfl
@[simp] theorem driveData_calls (v : Bool) (s : State) : (driveData v s).calls = s.calls := rfl
@[simp] theorem driveData_env (v : Bool) (s : State) : (driveData v s).env = s.env := rfl
@[simp] theorem driveData_result (v : Bool) (s : State) : (driveData v s).result = s.result := rfl
@[simp] theorem driveData_platform (v : Bool) (s : State) : (driveData v s).platform = s.platform := rfl

@[simp] theorem setResult_eng (r : Result) (s : State) : (setResult r s).eng = s.eng := rfl
@[simp] theorem setResult_drv (r : Result) (s : State) : (setResult r s).drv = s.drv := rfl
@[simp] theorem setResult_modes (r : Result) (s : State) : (setResult r s).modes = s.modes := rfl
@[simp] theorem setResult_calls (r : Result) (s : State) : (setResult r s).calls = s.calls := rfl
@[simp] theorem setResult_env (r : Result) (s : State) : (setResult r s).env = s.env := rfl
@[simp] theorem setResult_result (r : Result) (s : State) : (setResult r s).result = r := rfl
@[simp] theorem setResult_platform (r : Result) (s : State) : (setResult r s).platform = s.platform := rfl

@[simp] theorem samplePhase_eng (p : Phase) (s : State) : (samplePhase p s).eng = s.eng := rfl
@[simp] theorem samplePhase_drv (p : Phase) (s : State) : (samplePhase p s).drv = s.drv := rfl
@[simp] theorem samplePhase_modes (p : Phase) (s : State) : (samplePhase p s).modes = s.modes := rfl
@[simp] theorem samplePhase_calls (p : Phase) (s : State) : (samplePhase p s).calls = s.calls := rfl
@[simp] theorem samplePhase_env (p : Phase) (s : State) : (samplePhase p s).env =
    { now := s.env.now + p.gap, devC := p.devC, devD := p.devD } := rfl
@[simp] theorem samplePhase_result (p : Phase) (s : State) : (samplePhase p s).result = s.result := rfl
@[simp] theorem samplePhase_platform (p : Phase) (s : State) : (samplePhase p s).platform = s.platform := rfl

@[simp] theorem beginCall_eng (c : Call) (rest : List Call) (s : State) : (beginCall c rest s).eng = s.eng := rfl
@[simp] theorem beginCall_drv (c : Call) (rest : List Call) (s : State) : (beginCall c rest s).drv = s.drv := rfl
@[simp] theorem beginCall_modes (c : Call) (rest : List Call) (s : State) : (beginCall c rest s).modes = s.modes := rfl
@[simp] theorem beginCall_calls (c : Call) (rest : List Call) (s : State) : (beginCall c rest s).calls = rest := rfl
@[simp] theorem beginCall_env (c : Call) (rest : List Call) (s : State) : (beginCall c rest s).env = c.sample := rfl
@[simp] theorem beginCall_result (c : Call) (rest : List Call) (s : State) : (beginCall c rest s).result = .none := rfl
@[simp] theorem beginCall_platform (c : Call) (rest : List Call) (s : State) : (beginCall c rest s).platform = s.platform := rfl

end Sys2Proof.Machine
end

