-- ==== Sys2Proof/Laws/Lines.lean ====
section
/-! SUPPORT. The laws of the line space: a drive mode read after it is written, the other lines left alone, the list
kept in its one form (R42, R43, R45), and what a level is (R44). -/

namespace Sys2Proof.Machine

theorem modeOf_setMode_same (ms : List (LineId × DriveMode)) (l : LineId) (m : DriveMode) :
    modeOf (setMode ms l m) l = some m := by
  induction ms with
  | nil => simp [setMode, modeOf]
  | cons e rest ih =>
    obtain ⟨k, v⟩ := e
    simp only [setMode]
    split_ifs with h1 h2
    · simp [modeOf]
    · simp [modeOf]
    · simp [modeOf, Ne.symm h2, ih]

theorem modeOf_setMode_other (ms : List (LineId × DriveMode)) {l k : LineId} (m : DriveMode) (h : k ≠ l) :
    modeOf (setMode ms l m) k = modeOf ms k := by
  induction ms with
  | nil => simp [setMode, modeOf, Ne.symm h]
  | cons e rest ih =>
    obtain ⟨j, v⟩ := e
    simp only [setMode]
    split_ifs with h1 h2
    · simp [modeOf, Ne.symm h]
    · subst h2; simp [modeOf, Ne.symm h]
    · simp [modeOf, ih]

/-- The last of two writes to one line stands. -/
@[simp] theorem setMode_setMode_same (ms : List (LineId × DriveMode)) (l : LineId) (m n : DriveMode) :
    setMode (setMode ms l m) l n = setMode ms l n := by
  induction ms with
  | nil => simp [setMode]
  | cons e rest ih =>
    obtain ⟨k, v⟩ := e
    simp only [setMode]
    split_ifs with h1 h2
    · simp [setMode]
    · subst h2; simp [setMode]
    · simp [setMode, h1, h2, ih]

@[simp] theorem modeAt_setModeAt_same (ms : List (LineId × DriveMode)) (l : LineId) (m : DriveMode) :
    modeAt (setModeAt ms (some l) m) (some l) = some m :=
  modeOf_setMode_same ms l m

theorem modeAt_setModeAt_other (ms : List (LineId × DriveMode)) {l k : LineRef} (m : DriveMode) (h : k ≠ l) :
    modeAt (setModeAt ms l m) k = modeAt ms k := by
  cases l with
  | none => rfl
  | some x =>
    cases k with
    | none => rfl
    | some y => exact modeOf_setMode_other ms m fun e => h (congrArg some e)

theorem mem_setMode {ms : List (LineId × DriveMode)} {l : LineId} {m : DriveMode} {e : LineId × DriveMode}
    (h : e ∈ setMode ms l m) : e = (l, m) ∨ e ∈ ms := by
  induction ms with
  | nil => exact .inl (by simpa [setMode] using h)
  | cons a rest ih =>
    obtain ⟨k, v⟩ := a
    simp only [setMode] at h
    split_ifs at h with h1 h2
    · simpa using h
    · rcases List.mem_cons.1 h with h | h
      · exact .inl h
      · exact .inr (List.mem_cons_of_mem _ h)
    · rcases List.mem_cons.1 h with h | h
      · exact .inr (h ▸ List.mem_cons_self)
      · exact (ih h).imp id (List.mem_cons_of_mem _)

theorem setMode_rising {ms : List (LineId × DriveMode)} (l : LineId) (m : DriveMode) (h : modesRising ms) :
    modesRising (setMode ms l m) := by
  induction ms with
  | nil => simp [setMode, modesRising]
  | cons a rest ih =>
    obtain ⟨k, v⟩ := a
    obtain ⟨hk, hr⟩ := List.pairwise_cons.1 h
    simp only [setMode]
    split_ifs with h1 h2
    · refine List.pairwise_cons.2 ⟨fun e he => ?_, h⟩
      rcases List.mem_cons.1 he with rfl | he
      · exact h1
      · exact lt_trans h1 (hk e he)
    · subst h2; exact List.pairwise_cons.2 ⟨fun e he => hk e he, hr⟩
    · refine List.pairwise_cons.2 ⟨fun e he => ?_, ih hr⟩
      rcases mem_setMode he with rfl | he
      · exact lt_of_le_of_ne (Nat.le_of_not_lt h1) (Ne.symm h2)
      · exact hk e he

theorem setModeAt_rising {ms : List (LineId × DriveMode)} (l : LineRef) (m : DriveMode) (h : modesRising ms) :
    modesRising (setModeAt ms l m) := by
  cases l with
  | none => exact h
  | some x => exact setMode_rising x m h

/-- A pair that can be bound is two identifiers. -/
theorem lineValid_pair {p : LineRule} {c d : LineRef} (h : lineValid p c d = true) : ∃ x y, c = some x ∧ d = some y := by
  cases c with
  | none => simp [lineValid] at h
  | some x =>
    cases d with
    | none => simp [lineValid] at h
    | some y => exact ⟨x, y, rfl, rfl⟩

/-- The default binds two different identifiers (R5). -/
@[simp] theorem lineValid_standard (x y : LineId) : lineValid .standard (some x) (some y) = (x != y) := rfl

/-- A listed platform binds the pairs it lists. -/
@[simp] theorem lineValid_only (pairs : List (LineId × LineId)) (x y : LineId) :
    lineValid (.only pairs) (some x) (some y) = pairs.contains (x, y) := rfl

/-- An open platform binds the pairs of its lines that its predicate admits (R5). -/
@[simp] theorem lineValid_ofPlatform (x y : LineId) :
    lineValid .ofPlatform (some x) (some y) = (Config.isLine x && Config.isLine y && Config.lineValid x y) := rfl

theorem levelOf_low {ms : List (LineId × DriveMode)} {l : LineRef} {pulled : Bool} :
    levelOf ms l pulled = .low ↔ modeAt ms l = some .assertedLow ∨ pulled = true := by
  by_cases h : modeAt ms l = some .assertedLow ∨ pulled = true <;> simp [levelOf, h]

theorem levelOf_high {ms : List (LineId × DriveMode)} {l : LineRef} {pulled : Bool} :
    levelOf ms l pulled = .high ↔ modeAt ms l ≠ some .assertedLow ∧ pulled = false := by
  by_cases h : modeAt ms l = some .assertedLow <;> cases pulled <;> simp [levelOf, h]

/-- Two different lines: each level follows its own pull (R44). -/
theorem clkLevel_of_ne {s : State} (h : s.eng.clockLine ≠ s.eng.dataLine) :
    clkLevel s = levelOf s.modes s.eng.clockLine s.env.devC := by
  simp [clkLevel, devicePulls, h]

theorem datLevel_of_ne {s : State} (h : s.eng.clockLine ≠ s.eng.dataLine) :
    datLevel s = levelOf s.modes s.eng.dataLine s.env.devD := by
  simp [datLevel, devicePulls, Ne.symm h]

/-- What the sampled levels are, for any two lines (R44). -/
theorem clkLevel_low {s : State} : clkLevel s = .low ↔ clockLow s := by
  simp [clkLevel, levelOf_low, devicePulls]

theorem clkLevel_high {s : State} : clkLevel s = .high ↔ clockHigh s := by
  simp [clkLevel, levelOf_high, devicePulls]

theorem datLevel_high {s : State} : datLevel s = .high ↔ dataHigh s := by
  simp [datLevel, levelOf_high, devicePulls, and_comm, eq_comm (a := s.eng.dataLine)]

end Sys2Proof.Machine
end

