-- ==== Sys2Proof/Laws/Ops.lean ====
section
/-! SUPPORT. What each shared operation can do, said once: the requests, the gates of the rows, the engine's step and
the driver's transition, and the arithmetic of the shift register and the receive register. -/

namespace Sys2Proof.Machine

theorem andThen_next_iff {a : Answer} {f : State → Answer} {t : State} :
    andThen a f = .next t ↔ ∃ u, a = .next u ∧ f u = .next t := by
  cases a <;> simp [andThen]

/-- Everything `REQW` can do (R102, R106, R107). -/
theorem requestWrite_cases (b : Byte) (s : State) :
    (s.eng.bstate = .bUninit ∧ requestWrite b s = .next s) ∨
    (s.eng.bstate ≠ .bUninit ∧ s.eng.busy = true ∧ requestWrite b s = .refused .requestWhileBusy) ∨
    (s.eng.bstate ≠ .bUninit ∧ s.eng.busy = false ∧
      requestWrite b s = .next { s with eng := { s.eng with busy := true, op := .write, sh := b } }) := by
  unfold requestWrite
  split_ifs with h1 h2
  · exact .inl ⟨h1, rfl⟩
  · exact .inr (.inl ⟨h1, h2, rfl⟩)
  · exact .inr (.inr ⟨h1, by simpa using h2, rfl⟩)

/-- Everything `REQR` can do (R103, R106, R107). -/
theorem requestRead_cases (s : State) :
    (s.eng.bstate = .bUninit ∧ requestRead s = .next s) ∨
    (s.eng.bstate ≠ .bUninit ∧ s.eng.busy = true ∧ requestRead s = .refused .requestWhileBusy) ∨
    (s.eng.bstate ≠ .bUninit ∧ s.eng.busy = false ∧
      requestRead s = .next { s with eng := { s.eng with busy := true, op := .read } }) := by
  unfold requestRead
  split_ifs with h1 h2
  · exact .inl ⟨h1, rfl⟩
  · exact .inr (.inl ⟨h1, h2, rfl⟩)
  · exact .inr (.inr ⟨h1, by simpa using h2, rfl⟩)

theorem byCaller_next {s t : State} {act : State → Answer} (h : byCaller s act = .next t) :
    s.drv.dstate = .dUninit ∧ act s = .next t := by
  unfold byCaller at h
  split_ifs at h with hd
  exact ⟨hd, h⟩

theorem whenBus_next {q : BusState} {rule : State → State} {s t : State} (h : whenBus q rule s = .next t) :
    (s.eng.bstate = q ∧ t = rule s) ∨ (s.eng.bstate ≠ q ∧ t = s) := by
  unfold whenBus at h
  split_ifs at h with hq
  · exact .inl ⟨hq, by simpa using h.symm⟩
  · exact .inr ⟨hq, by simpa using h.symm⟩

theorem whenDrv_next {q : DrvState} {rule : State → Answer} {s t : State} (h : whenDrv q rule s = .next t) :
    (s.drv.dstate = q ∧ rule s = .next t) ∨ (s.drv.dstate ≠ q ∧ t = s) := by
  unfold whenDrv at h
  split_ifs at h with hq
  · exact .inl ⟨hq, h⟩
  · exact .inr ⟨hq, by simpa using h.symm⟩

theorem whenIdle_next {act : State → Answer} {s t : State} (h : whenIdle act s = .next t) :
    (s.eng.busy = true ∧ t = s) ∨ (s.eng.busy = false ∧ act s = .next t) := by
  unfold whenIdle at h
  split_ifs at h with hb
  · exact .inl ⟨hb, by simpa using h.symm⟩
  · exact .inr ⟨by simpa using hb, h⟩

theorem issueRead_next {q : DrvState} {s t : State} (h : issueRead q s = .next t) :
    (s.eng.bstate = .bUninit ∧ t = setDstate q s) ∨
    (s.eng.bstate ≠ .bUninit ∧ s.eng.busy = false ∧
      t = setDstate q { s with eng := { s.eng with busy := true, op := .read } }) := by
  unfold issueRead at h
  obtain ⟨u, hu, ht⟩ := andThen_next_iff.1 h
  rcases requestRead_cases s with ⟨h1, e⟩ | ⟨-, -, e⟩ | ⟨h1, h2, e⟩ <;> rw [e] at hu <;> cases hu <;> cases ht
  · exact .inl ⟨h1, rfl⟩
  · exact .inr ⟨h1, h2, rfl⟩

theorem issueWrite_next {b : Byte} {q : DrvState} {s t : State} (h : issueWrite b q s = .next t) :
    (s.eng.bstate = .bUninit ∧ t = setDstate q s) ∨
    (s.eng.bstate ≠ .bUninit ∧ s.eng.busy = false ∧
      t = setDstate q { s with eng := { s.eng with busy := true, op := .write, sh := b } }) := by
  unfold issueWrite at h
  obtain ⟨u, hu, ht⟩ := andThen_next_iff.1 h
  rcases requestWrite_cases b s with ⟨h1, e⟩ | ⟨-, -, e⟩ | ⟨h1, h2, e⟩ <;> rw [e] at hu <;> cases hu <;> cases ht
  · exact .inl ⟨h1, rfl⟩
  · exact .inr ⟨h1, h2, rfl⟩

theorem issueRead_idle {q : DrvState} {s : State} (hb : s.eng.bstate ≠ .bUninit) (hi : s.eng.busy = false) :
    issueRead q s = .next (setDstate q (setOp .read (setBusy true s))) := by
  simp [issueRead, requestRead, andThen, hb, hi]

theorem issueWrite_idle {b : Byte} {q : DrvState} {s : State} (hb : s.eng.bstate ≠ .bUninit)
    (hi : s.eng.busy = false) :
    issueWrite b q s = .next (setDstate q (setSh b (setOp .write (setBusy true s)))) := by
  simp [issueWrite, requestWrite, andThen, hb, hi]

@[simp] theorem completeOperation_eng (s : State) :
    (completeOperation s).eng = { s.eng with busy := false, bstate := .bIdle } := rfl
@[simp] theorem completeOperation_drv (s : State) : (completeOperation s).drv = s.drv := rfl
@[simp] theorem completeOperation_modes (s : State) :
    (completeOperation s).modes = setModeAt s.modes s.eng.clockLine .assertedLow := rfl
@[simp] theorem completeOperation_calls (s : State) : (completeOperation s).calls = s.calls := rfl
@[simp] theorem completeOperation_env (s : State) : (completeOperation s).env = s.env := rfl
@[simp] theorem completeOperation_result (s : State) : (completeOperation s).result = s.result := rfl
@[simp] theorem completeOperation_platform (s : State) : (completeOperation s).platform = s.platform := rfl

@[simp] theorem takeBitOff_eng (s : State) :
    (takeBitOff s).eng = { s.eng with par := accumulateParity s.eng.par s.eng.sh, sh := s.eng.sh >>> 1 } := rfl
@[simp] theorem takeBitOff_drv (s : State) : (takeBitOff s).drv = s.drv := rfl
@[simp] theorem takeBitOff_modes (s : State) : (takeBitOff s).modes = s.modes := rfl
@[simp] theorem takeBitOff_calls (s : State) : (takeBitOff s).calls = s.calls := rfl
@[simp] theorem takeBitOff_env (s : State) : (takeBitOff s).env = s.env := rfl
@[simp] theorem takeBitOff_result (s : State) : (takeBitOff s).result = s.result := rfl
@[simp] theorem takeBitOff_platform (s : State) : (takeBitOff s).platform = s.platform := rfl

/-- Binding touches the engine and the line space only, and a refused pair leaves the power-on values (R100, R101). -/
theorem assignLines_cases (c d : LineRef) (s : State) :
    (lineValid s.platform c d = true ∧
      assignLines c d s =
        { s with
          eng := { Engine.powerOn with bstate := .bIdle, clockLine := c, dataLine := d }
          modes := setModeAt (setModeAt s.modes c .released) d .released }) ∨
    (lineValid s.platform c d = false ∧ assignLines c d s = { s with eng := Engine.powerOn }) := by
  unfold assignLines
  split_ifs with h
  · exact .inl ⟨h, rfl⟩
  · exact .inr ⟨by simpa using h, rfl⟩

/-- Only bit `i` of the byte changes (R144). -/
theorem getLsbD_setBitAt (v : Byte) (i : BitVec 3) (b : Bool) (j : Nat) (hj : j < 8) :
    (setBitAt v i b).getLsbD j = if j = i.toNat then b else v.getLsbD j := by
  have hi : i.toNat < 8 := i.isLt
  unfold setBitAt
  cases b <;> by_cases h : j = i.toNat <;> simp [h, hj, hi]
  all_goals omega

end Sys2Proof.Machine
end

