-- ==== Sys2Proof/Laws/Engine.lean ====
section
/-! SUPPORT. What the engine's step leaves alone: the driver and the interface (R161 (c), R8), and every line but the
two it has bound (R20, R57). -/

namespace Sys2Proof.Machine

/-- Unfold the rule of one state and close each branch. -/
theorem engineStep_outside (s : State) :
    (engineStep s).drv = s.drv ∧ (engineStep s).calls = s.calls ∧ (engineStep s).env = s.env ∧
    (engineStep s).result = s.result ∧ (engineStep s).platform = s.platform := by
  unfold engineStep
  cases s.eng.bstate <;>
    simp only [ruleBUninit, ruleBIdle, ruleWSettle, ruleWInhibit, ruleWStart, ruleWDevClk, ruleWBitRise, ruleWBitFall,
      ruleWParRise, ruleWParFall, ruleWStopDelay, ruleWStopClkLow, ruleWStopBothHigh, ruleRFreeDelay, ruleRStartLow,
      ruleRStartSettle, ruleRStartRise, ruleRBitLow, ruleRBitHigh, ruleRParLow, ruleRParHigh, ruleRStopLow,
      ruleRStopHigh] <;>
    (try split_ifs) <;> (try cases s.eng.op) <;> simp

@[simp] theorem engineStep_drv (s : State) : (engineStep s).drv = s.drv := (engineStep_outside s).1
@[simp] theorem engineStep_calls (s : State) : (engineStep s).calls = s.calls := (engineStep_outside s).2.1
@[simp] theorem engineStep_env (s : State) : (engineStep s).env = s.env := (engineStep_outside s).2.2.1
@[simp] theorem engineStep_result (s : State) : (engineStep s).result = s.result := (engineStep_outside s).2.2.2.1
@[simp] theorem engineStep_platform (s : State) : (engineStep s).platform = s.platform :=
  (engineStep_outside s).2.2.2.2

@[simp] theorem runPhases_nil (s : State) : runPhases [] s = s := rfl

@[simp] theorem runPhases_cons (p : Phase) (ps : List Phase) (s : State) :
    runPhases (p :: ps) s = runPhases ps (engineStep (samplePhase p s)) := rfl

theorem runPhases_append (ps qs : List Phase) (s : State) :
    runPhases (ps ++ qs) s = runPhases qs (runPhases ps s) := by
  induction ps generalizing s with
  | nil => rfl
  | cons p rest ih => exact ih _

/-- A frame leaves the driver, the calls and the platform alone. -/
theorem runPhases_outside (ps : List Phase) (s : State) :
    (runPhases ps s).drv = s.drv ∧ (runPhases ps s).calls = s.calls ∧ (runPhases ps s).result = s.result ∧
    (runPhases ps s).platform = s.platform := by
  induction ps generalizing s with
  | nil => exact ⟨rfl, rfl, rfl, rfl⟩
  | cons p rest ih => simpa using ih (engineStep (samplePhase p s))

end Sys2Proof.Machine
end

