-- ==== Sys2Proof/Laws/Frames.lean ====
section
/-! SUPPORT. What one clock cell of a frame does, for a frame's proof to go cell by cell (R66, R67, R125, R144, R145,
R146 to R149), and what the whole frame does (R131, R150). -/

namespace Sys2Proof.Machine

/-- Two different lines are bound, and the block pulls neither low. -/
structure LinesFree (s : State) : Prop where
  different : s.eng.clockLine ≠ s.eng.dataLine
  clock : modeAt s.modes s.eng.clockLine ≠ some .assertedLow
  data : modeAt s.modes s.eng.dataLine ≠ some .assertedLow

theorem linesFree_iff (s : State) :
    LinesFree s ↔ s.eng.clockLine ≠ s.eng.dataLine ∧ modeAt s.modes s.eng.clockLine ≠ some .assertedLow ∧
      modeAt s.modes s.eng.dataLine ≠ some .assertedLow :=
  ⟨fun h => ⟨h.different, h.clock, h.data⟩, fun h => ⟨h.1, h.2.1, h.2.2⟩⟩

/-- A window that began `k` microseconds ago has ended exactly if `k` is more than it (R90). -/
theorem elapsed_add (interval since k : Micros) :
    elapsed interval since (since + k) = decide (interval.toNat < k.toNat) := by
  have h : since + k - since = k := by bv_omega
  simp [elapsed, h]

/-- A data cell of a read: bit `cnt` of `rx` takes the cell's level, and the bit is counted (R144, R145). -/
theorem runPhases_readCell_data (v : Bool) {s : State} (hq : s.eng.bstate = .rBitLow) (hf : LinesFree s) :
    runPhases (readCell v) s =
      { s with
        env := { now := s.env.now + 1#32 + 1#32, devC := false, devD := !v }
        eng := { s.eng with
          rx := setBitAt s.eng.rx s.eng.cnt v
          cnt := if s.eng.cnt = 7#3 then 0#3 else s.eng.cnt + 1#3
          bstate := if s.eng.cnt = 7#3 then .rParLow else .rBitLow } } := by
  obtain ⟨hn, hc, hd⟩ := hf
  have hn' := Ne.symm hn
  by_cases h7 : s.eng.cnt = 7#3 <;> cases v <;>
    simp [readCell, samplePhase, engineStep, hq, ruleRBitLow, ruleRBitHigh, clkLevel, datLevel, devicePulls,
      levelOf, bitOfLevel, setBstate, setRx, setCnt, h7, hc, hd, hn, hn']

/-- The parity cell of a read changes the tag only (R146, R147). -/
theorem runPhases_readCell_parity (v : Bool) {s : State} (hq : s.eng.bstate = .rParLow) (hf : LinesFree s) :
    runPhases (readCell v) s =
      { s with
        env := { now := s.env.now + 1#32 + 1#32, devC := false, devD := !v }
        eng := { s.eng with bstate := .rStopLow } } := by
  obtain ⟨hn, hc, hd⟩ := hf
  simp [readCell, samplePhase, engineStep, hq, ruleRParLow, ruleRParHigh, clkLevel, devicePulls, levelOf, setBstate, hc,
    hn]

/-- The stop cell of a read completes it (R148, R149). -/
theorem runPhases_readCell_stop (v : Bool) {s : State} (hq : s.eng.bstate = .rStopLow) (hf : LinesFree s) :
    runPhases (readCell v) s =
      { s with
        env := { now := s.env.now + 1#32 + 1#32, devC := false, devD := !v }
        eng := { s.eng with busy := false, bstate := .bIdle }
        modes := setModeAt s.modes s.eng.clockLine .assertedLow } := by
  obtain ⟨hn, hc, hd⟩ := hf
  simp [readCell, samplePhase, engineStep, hq, ruleRStopLow, ruleRStopHigh, clkLevel, devicePulls, levelOf, setBstate,
    setBusy, completeOperation, assertLow, hc, hn]

/-- A data cell of a write: the completed bit goes into `par` and out of `sh`, then the next bit is driven, or after
the eighth the parity (R124, R125). -/
theorem runPhases_writeCell_data {s : State} (hq : s.eng.bstate = .wBitRise)
    (hc : modeAt s.modes s.eng.clockLine ≠ some .assertedLow) :
    runPhases writeCell s =
      { s with
        env := { now := s.env.now + 1#32 + 1#32, devC := true, devD := false }
        eng := { s.eng with
          par := accumulateParity s.eng.par s.eng.sh
          sh := s.eng.sh >>> 1
          cnt := if s.eng.cnt = 7#3 then 0#3 else s.eng.cnt + 1#3
          bstate := if s.eng.cnt = 7#3 then .wParRise else .wBitRise }
        modes := setModeAt s.modes s.eng.dataLine (modeOfBit
          (if s.eng.cnt = 7#3 then accumulateParity s.eng.par s.eng.sh else (s.eng.sh >>> 1).getLsbD 0)) } := by
  by_cases h7 : s.eng.cnt = 7#3 <;>
    simp [writeCell, samplePhase, engineStep, hq, ruleWBitRise, ruleWBitFall, takeBitOff, clkLevel, devicePulls, levelOf,
      driveData, setBstate, setSh, setPar, setCnt, h7, hc]

/-- The parity cell of a write ends in the stop delay, the data line released (R126, R127). -/
theorem runPhases_writeCell_parity {s : State} (hq : s.eng.bstate = .wParRise)
    (hc : modeAt s.modes s.eng.clockLine ≠ some .assertedLow) :
    runPhases writeCell s =
      { s with
        env := { now := s.env.now + 1#32 + 1#32, devC := true, devD := false }
        eng := { s.eng with t := s.env.now + 1#32 + 1#32, bstate := .wStopDelay }
        modes := setModeAt s.modes s.eng.dataLine .released } := by
  simp [writeCell, samplePhase, engineStep, hq, ruleWParRise, ruleWParFall, clkLevel, devicePulls, levelOf, setBstate,
    stampEngine, release, hc]

/-- Eight cells put the eight bits in place. -/
theorem setBitAt_all : ∀ b : Byte,
    setBitAt (setBitAt (setBitAt (setBitAt (setBitAt (setBitAt (setBitAt (setBitAt 0x00#8 0#3 (b.getLsbD 0)) 1#3
      (b.getLsbD 1)) 2#3 (b.getLsbD 2)) 3#3 (b.getLsbD 3)) 4#3 (b.getLsbD 4)) 5#3 (b.getLsbD 5)) 6#3 (b.getLsbD 6)) 7#3
      (b.getLsbD 7) = b := by decide +kernel

/-- From the first data cell of a read to its end (R144 to R149). -/
theorem runPhases_readCells (b : Byte) (p stop : Bool) {s : State} (hq : s.eng.bstate = .rBitLow)
    (hc : s.eng.cnt = 0#3) (hr : s.eng.rx = 0x00#8) (hf : LinesFree s) :
    runPhases (readCell (b.getLsbD 0) ++ readCell (b.getLsbD 1) ++ readCell (b.getLsbD 2) ++ readCell (b.getLsbD 3) ++
        readCell (b.getLsbD 4) ++ readCell (b.getLsbD 5) ++ readCell (b.getLsbD 6) ++ readCell (b.getLsbD 7) ++
        readCell p ++ readCell stop) s =
      { s with
        env := { now := s.env.now + 20#32, devC := false, devD := !stop }
        eng := { s.eng with rx := b, cnt := 0#3, busy := false, bstate := .bIdle }
        modes := setModeAt s.modes s.eng.clockLine .assertedLow } := by
  obtain ⟨hn, h1, h2⟩ := hf
  have e := setBitAt_all b
  simp [runPhases_append, runPhases_readCell_data, runPhases_readCell_parity, runPhases_readCell_stop, linesFree_iff,
    hn, h1, h2, hq, hc, hr, BitVec.add_assoc]
  simpa using e

/-- The steps of a read before its first data cell. -/
def readHead (start : Bool) : List Phase :=
  [{ gap := 0#32, devC := false, devD := false },
   { gap := tReadFree + 1#32, devC := false, devD := false },
   { gap := 1#32, devC := true, devD := !start },
   { gap := tReadStart + 1#32, devC := true, devD := !start },
   { gap := 1#32, devC := false, devD := !start }]

/-- The dispatch of a queued read, the bus-free delay and the start cell (R109, R140 to R143). -/
theorem runPhases_readHead (start : Bool) {s : State} {x y : LineId} (hq : s.eng.bstate = .bIdle)
    (hb : s.eng.busy = true) (ho : s.eng.op = .read) (hx : s.eng.clockLine = some x) (hy : s.eng.dataLine = some y)
    (hxy : x ≠ y) :
    runPhases (readHead start) s =
      { s with
        env := { now := s.env.now + 51#32 + 1#32 + 6#32 + 1#32, devC := false, devD := !start }
        eng := { s.eng with t := s.env.now + 51#32 + 1#32, cnt := 0#3, rx := 0x00#8, bstate := .rBitLow }
        modes := setModeAt (setModeAt s.modes s.eng.clockLine .released) s.eng.dataLine .released } := by
  have k1 : modeAt (setModeAt (setModeAt s.modes (some x) .released) (some y) .released) (some x) =
      some .released := by
    rw [modeAt_setModeAt_other _ _ (by simpa using hxy)]; simp
  have e1 : elapsed 50#32 s.env.now (s.env.now + 51#32) = true := by rw [elapsed_add]; decide
  have e2 : ∀ a, elapsed 5#32 a (a + 6#32) = true := fun a => by rw [elapsed_add]; decide
  simp [readHead, samplePhase, engineStep, hq, ruleBIdle, hb, ho, hx, hy, ruleRFreeDelay, ruleRStartLow,
    ruleRStartSettle, ruleRStartRise, setBstate, stampEngine, release, setRx, setCnt, clkLevel, devicePulls, levelOf, hxy,
    k1, tReadFree, tReadStart, e1, e2]

/-- The bus-free delay has ended one delay later, if not before (R140). -/
theorem elapsed_free_delay {t now : Micros} (h : ¬ elapsed tReadFree t now = true) :
    elapsed tReadFree t (now + 51#32) = true := by
  have hn := now.isLt
  have ht := t.isLt
  simp only [elapsed, tReadFree, decide_eq_true_eq, BitVec.toNat_sub, BitVec.toNat_add, BitVec.toNat_ofNat] at h ⊢
  omega

/-- A read that waits for its start bit takes the start cell in the same steps (R140 to R143). -/
theorem runPhases_readHead_waiting (start : Bool) {s : State}
    (hq : s.eng.bstate = .rFreeDelay ∨ s.eng.bstate = .rStartLow) (hf : LinesFree s) :
    runPhases (readHead start) s =
      { s with
        env := { now := s.env.now + 51#32 + 1#32 + 6#32 + 1#32, devC := false, devD := !start }
        eng := { s.eng with t := s.env.now + 51#32 + 1#32, cnt := 0#3, rx := 0x00#8, bstate := .rBitLow } } := by
  obtain ⟨hn, h1, -⟩ := hf
  have e2 : ∀ a, elapsed tReadStart a (a + 6#32) = true := fun a => by rw [elapsed_add]; decide
  have e3 : tReadFree + 1#32 = 51#32 := rfl
  have e4 : tReadStart + 1#32 = 6#32 := rfl
  rcases hq with hq | hq
  · by_cases he : elapsed tReadFree s.eng.t s.env.now = true
    · simp [readHead, samplePhase, engineStep, hq, ruleRFreeDelay, ruleRStartLow, ruleRStartSettle, ruleRStartRise,
        setBstate, stampEngine, setRx, setCnt, clkLevel, devicePulls, levelOf, hn, h1, he, e2, e3, e4]
    · have he' := elapsed_free_delay he
      simp [readHead, samplePhase, engineStep, hq, ruleRFreeDelay, ruleRStartLow, ruleRStartSettle, ruleRStartRise,
        setBstate, stampEngine, setRx, setCnt, clkLevel, devicePulls, levelOf, hn, h1, he, he', e2, e3, e4]
  · simp [readHead, samplePhase, engineStep, hq, ruleRStartLow, ruleRStartSettle, ruleRStartRise, setBstate,
      stampEngine, setRx, setCnt, clkLevel, devicePulls, levelOf, hn, h1, e2, e3, e4]

theorem readPhases_eq (start : Bool) (b : Byte) (p stop : Bool) :
    readPhases start b p stop =
      readHead start ++ (readCell (b.getLsbD 0) ++ readCell (b.getLsbD 1) ++ readCell (b.getLsbD 2) ++
        readCell (b.getLsbD 3) ++ readCell (b.getLsbD 4) ++ readCell (b.getLsbD 5) ++ readCell (b.getLsbD 6) ++
        readCell (b.getLsbD 7) ++ readCell p ++ readCell stop) := by
  simp only [readPhases, readHead, List.append_assoc]

/-- The whole of a queued read (R150). -/
theorem runPhases_readPhases (start : Bool) (b : Byte) (p stop : Bool) {s : State} {x y : LineId}
    (hq : s.eng.bstate = .bIdle) (hb : s.eng.busy = true) (ho : s.eng.op = .read) (hx : s.eng.clockLine = some x)
    (hy : s.eng.dataLine = some y) (hxy : x ≠ y) :
    runPhases (readPhases start b p stop) s =
      { s with
        env := { now := s.env.now + 51#32 + 1#32 + 6#32 + 1#32 + 20#32, devC := false, devD := !stop }
        eng := { s.eng with t := s.env.now + 51#32 + 1#32, rx := b, cnt := 0#3, busy := false, bstate := .bIdle }
        modes := setMode (setMode (setMode s.modes x .released) y .released) x .assertedLow } := by
  rw [readPhases_eq, runPhases_append, runPhases_readHead start hq hb ho hx hy hxy,
    runPhases_readCells b p stop (by rfl) (by rfl) (by rfl)]
  · simp [hx, hy, setModeAt]
  · simp only [linesFree_iff, hx, hy]
    refine ⟨by simpa using hxy, ?_, by simp⟩
    rw [modeAt_setModeAt_other _ _ (by simpa using hxy)]; simp

/-- The parity after eight bits is the exclusive or of the byte, and the shift register is empty (R94, R95). -/
theorem accumulateParity_all : ∀ b : Byte,
    accumulateParity (accumulateParity (accumulateParity (accumulateParity (accumulateParity (accumulateParity
      (accumulateParity (accumulateParity false b) (b >>> 1)) (b >>> 1 >>> 1)) (b >>> 1 >>> 1 >>> 1))
      (b >>> 1 >>> 1 >>> 1 >>> 1)) (b >>> 1 >>> 1 >>> 1 >>> 1 >>> 1)) (b >>> 1 >>> 1 >>> 1 >>> 1 >>> 1 >>> 1))
      (b >>> 1 >>> 1 >>> 1 >>> 1 >>> 1 >>> 1 >>> 1) = parityOfByte b ∧
    b >>> 1 >>> 1 >>> 1 >>> 1 >>> 1 >>> 1 >>> 1 >>> 1 = 0x00#8 := by decide +kernel

/-- The steps of a write before its first data cell. -/
def writeHead : List Phase :=
  [{ gap := 0#32, devC := false, devD := false },
   { gap := tWriteSettle + 1#32, devC := false, devD := false },
   { gap := tWriteInhibit + 1#32, devC := false, devD := false },
   { gap := tWriteStart + 1#32, devC := false, devD := false },
   { gap := 1#32, devC := true, devD := false }]

/-- The drive modes at the device's first clock-low: clock released, data low. -/
def modesAtStart (ms : List (LineId × DriveMode)) (x y : LineId) : List (LineId × DriveMode) :=
  setMode (setMode (setMode (setMode (setMode ms x .released) y .released) x .assertedLow) y .assertedLow) x .released

/-- The dispatch of a queued write, its timed windows and the device's first clock-low (R109, R120 to R123). -/
theorem runPhases_writeHead {s : State} {x y : LineId} (hq : s.eng.bstate = .bIdle) (hb : s.eng.busy = true)
    (ho : s.eng.op = .write) (hx : s.eng.clockLine = some x) (hy : s.eng.dataLine = some y) :
    runPhases writeHead s =
      { s with
        env := { now := s.env.now + 301#32 + 301#32 + 11#32 + 1#32, devC := true, devD := false }
        eng := { s.eng with t := s.env.now + 301#32 + 301#32, cnt := 0#3, par := false, bstate := .wBitRise }
        modes := setMode (modesAtStart s.modes x y) y (modeOfBit (s.eng.sh.getLsbD 0)) } := by
  have e1 : ∀ a, elapsed 300#32 a (a + 301#32) = true := fun a => by rw [elapsed_add]; decide
  have e2 : ∀ a, elapsed 10#32 a (a + 11#32) = true := fun a => by rw [elapsed_add]; decide
  simp [writeHead, samplePhase, engineStep, hq, ruleBIdle, hb, ho, hx, hy, ruleWSettle, ruleWInhibit, ruleWStart,
    ruleWDevClk, driveData, setBstate, stampEngine, release, assertLow, setPar, setCnt, clkLevel, devicePulls, levelOf,
    setModeAt, modesAtStart, tWriteSettle, tWriteInhibit, tWriteStart, e1, e2]

/-- The data cells and the parity cell of a write (R124 to R127). -/
theorem runPhases_writeCells {s : State} {y : LineId} {ms : List (LineId × DriveMode)} {v : Bool}
    (hq : s.eng.bstate = .wBitRise) (hc : s.eng.cnt = 0#3) (hp : s.eng.par = false)
    (hx : ∀ m, modeAt (setMode ms y m) s.eng.clockLine = some .released) (hy : s.eng.dataLine = some y)
    (hm : s.modes = setMode ms y (modeOfBit v)) :
    runPhases (writeCell ++ writeCell ++ writeCell ++ writeCell ++ writeCell ++ writeCell ++ writeCell ++ writeCell ++
        writeCell) s =
      { s with
        env := { now := s.env.now + 18#32, devC := true, devD := false }
        eng := { s.eng with par := parityOfByte s.eng.sh, sh := 0x00#8, cnt := 0#3, t := s.env.now + 18#32,
                            bstate := .wStopDelay }
        modes := setMode ms y .released } := by
  obtain ⟨e1, e2⟩ := accumulateParity_all s.eng.sh
  simp only [runPhases_append, runPhases_writeCell_data, runPhases_writeCell_parity, hq, hc, hp, hm, hx, hy, setModeAt,
    setMode_setMode_same, e1, e2, ne_eq, reduceCtorEq, Option.some.injEq, not_false_eq_true, ite_true, ite_false,
    BitVec.reduceAdd, BitVec.reduceEq, BitVec.add_assoc]

/-- The stop phase of a write (R128 to R130). -/
theorem runPhases_writeStop {s : State} (hq : s.eng.bstate = .wStopDelay) (ht : s.eng.t = s.env.now)
    (hf : LinesFree s) :
    runPhases [{ gap := tWriteStop + 1#32, devC := false, devD := false },
        { gap := 1#32, devC := true, devD := false }, { gap := 1#32, devC := false, devD := false }] s =
      { s with
        env := { now := s.env.now + 53#32, devC := false, devD := false }
        eng := { s.eng with busy := false, bstate := .bIdle }
        modes := setModeAt s.modes s.eng.clockLine .assertedLow } := by
  obtain ⟨-, h1, h2⟩ := hf
  have e1 : elapsed 50#32 s.env.now (s.env.now + 51#32) = true := by rw [elapsed_add]; decide
  simp [samplePhase, engineStep, hq, ht, ruleWStopDelay, ruleWStopClkLow, ruleWStopBothHigh, clkLevel, datLevel, devicePulls,
    levelOf, setBstate, setBusy, completeOperation, assertLow, tWriteStop, e1, h1, h2, BitVec.add_assoc]

theorem writePhases_eq :
    writePhases = writeHead ++ ((writeCell ++ writeCell ++ writeCell ++ writeCell ++ writeCell ++ writeCell ++ writeCell ++
      writeCell ++ writeCell) ++ [{ gap := tWriteStop + 1#32, devC := false, devD := false },
        { gap := 1#32, devC := true, devD := false }, { gap := 1#32, devC := false, devD := false }]) := by
  simp only [writePhases, writeHead, List.append_assoc]

/-- The whole of a queued write (R131). -/
theorem runPhases_writePhases {s : State} {x y : LineId} (hq : s.eng.bstate = .bIdle) (hb : s.eng.busy = true)
    (ho : s.eng.op = .write) (hx : s.eng.clockLine = some x) (hy : s.eng.dataLine = some y) (hxy : x ≠ y) :
    runPhases writePhases s =
      { s with
        env := { now := s.env.now + 301#32 + 301#32 + 11#32 + 1#32 + 18#32 + 53#32, devC := false, devD := false }
        eng := { s.eng with par := parityOfByte s.eng.sh, sh := 0x00#8, cnt := 0#3,
                            t := s.env.now + 301#32 + 301#32 + 11#32 + 1#32 + 18#32, busy := false, bstate := .bIdle }
        modes := setMode (setMode (modesAtStart s.modes x y) y .released) x .assertedLow } := by
  have k : ∀ m, modeOf (setMode (modesAtStart s.modes x y) y m) x = some .released := fun m => by
    rw [modeOf_setMode_other _ _ hxy, modesAtStart, modeOf_setMode_same]
  rw [writePhases_eq, runPhases_append, runPhases_writeHead hq hb ho hx hy, runPhases_append,
    runPhases_writeCells (y := y) (ms := modesAtStart s.modes x y) (v := s.eng.sh.getLsbD 0) (by rfl) (by rfl) (by rfl) (fun m => by
      simp only [hx]; exact k m) (by exact hy) (by rfl),
    runPhases_writeStop (by rfl) (by rfl)]
  · simp only [hx, setModeAt]
  · simp only [linesFree_iff, hx, hy, modeAt, k, modeOf_setMode_same]
    exact ⟨by simpa using hxy, by decide, by decide⟩

end Sys2Proof.Machine
end

