-- ==== Sys2Proof/Laws/PerInstr.lean ====
section
/-! SUPPORT. The families of statements made instruction by instruction. `CodeFits`: the code the encoder writes fits the
width of its format (spec/30_encoding.md R60). -/

namespace Sys2Proof.Laws

-- One after the other: side by side these many small proofs would each hold a thread.
set_option Elab.async false

/-- The code of `i` fits the width of its format (R60). -/
def CodeFits.Statement (i : Instr) : Prop :=
  (encode i).code.toNat < 2 ^ formatWidth (encode i).format

/-- A code whose high part is the literal `k` and whose low part has `m` bits. -/
theorem append_toNat_lt {n m : Nat} (k : BitVec n) (v : BitVec m) : (k ++ v).toNat < (k.toNat + 1) * 2 ^ m := by
  have hv := v.isLt
  rw [BitVec.toNat_append, ← Nat.shiftLeft_add_eq_or_of_lt hv, Nat.shiftLeft_eq]
  nlinarith

theorem CodeFits.assign (c d : LineRef) : CodeFits.Statement (.assign c d) := by
  simp [CodeFits.Statement, encode, plainWord, formatWidth]
theorem CodeFits.reqw (b : Byte) : CodeFits.Statement (.reqw b) := by
  simp [CodeFits.Statement, encode, plainWord, formatWidth]
theorem CodeFits.reqr : CodeFits.Statement .reqr := by
  simp [CodeFits.Statement, encode, plainWord, formatWidth]
theorem CodeFits.isBusy : CodeFits.Statement .isBusy := by
  simp [CodeFits.Statement, encode, plainWord, formatWidth]
theorem CodeFits.take : CodeFits.Statement .take := by
  simp [CodeFits.Statement, encode, plainWord, formatWidth]
theorem CodeFits.step : CodeFits.Statement .step := by
  simp [CodeFits.Statement, encode, plainWord, formatWidth]
theorem CodeFits.engReserved (low : BitVec 1) : CodeFits.Statement (.engReserved low) := by
  have h := append_toNat_lt 3#15 low
  simpa [CodeFits.Statement, encode, plainWord, formatWidth] using h
theorem CodeFits.attach (c d : LineRef) : CodeFits.Statement (.attach c d) := by
  simp [CodeFits.Statement, encode, plainWord, formatWidth]
theorem CodeFits.advance : CodeFits.Statement .advance := by
  simp [CodeFits.Statement, encode, plainWord, formatWidth]
theorem CodeFits.position : CodeFits.Statement .position := by
  simp [CodeFits.Statement, encode, plainWord, formatWidth]
theorem CodeFits.drvReserved : CodeFits.Statement .drvReserved := by
  simp [CodeFits.Statement, encode, plainWord, formatWidth]
theorem CodeFits.bUninit : CodeFits.Statement .bUninit := by
  simp [CodeFits.Statement, encode, plainWord, formatWidth]
theorem CodeFits.bIdle : CodeFits.Statement .bIdle := by
  simp [CodeFits.Statement, encode, plainWord, formatWidth]
theorem CodeFits.wSettle : CodeFits.Statement .wSettle := by
  simp [CodeFits.Statement, encode, plainWord, formatWidth]
theorem CodeFits.wInhibit : CodeFits.Statement .wInhibit := by
  simp [CodeFits.Statement, encode, plainWord, formatWidth]
theorem CodeFits.wStart : CodeFits.Statement .wStart := by
  simp [CodeFits.Statement, encode, plainWord, formatWidth]
theorem CodeFits.wDevClk : CodeFits.Statement .wDevClk := by
  simp [CodeFits.Statement, encode, plainWord, formatWidth]
theorem CodeFits.wBitRise : CodeFits.Statement .wBitRise := by
  simp [CodeFits.Statement, encode, plainWord, formatWidth]
theorem CodeFits.wBitFall : CodeFits.Statement .wBitFall := by
  simp [CodeFits.Statement, encode, plainWord, formatWidth]
theorem CodeFits.wParRise : CodeFits.Statement .wParRise := by
  simp [CodeFits.Statement, encode, plainWord, formatWidth]
theorem CodeFits.wParFall : CodeFits.Statement .wParFall := by
  simp [CodeFits.Statement, encode, plainWord, formatWidth]
theorem CodeFits.wStopDelay : CodeFits.Statement .wStopDelay := by
  simp [CodeFits.Statement, encode, plainWord, formatWidth]
theorem CodeFits.wStopClkLow : CodeFits.Statement .wStopClkLow := by
  simp [CodeFits.Statement, encode, plainWord, formatWidth]
theorem CodeFits.wStopBothHigh : CodeFits.Statement .wStopBothHigh := by
  simp [CodeFits.Statement, encode, plainWord, formatWidth]
theorem CodeFits.rFreeDelay : CodeFits.Statement .rFreeDelay := by
  simp [CodeFits.Statement, encode, plainWord, formatWidth]
theorem CodeFits.rStartLow : CodeFits.Statement .rStartLow := by
  simp [CodeFits.Statement, encode, plainWord, formatWidth]
theorem CodeFits.rStartSettle : CodeFits.Statement .rStartSettle := by
  simp [CodeFits.Statement, encode, plainWord, formatWidth]
theorem CodeFits.rStartRise : CodeFits.Statement .rStartRise := by
  simp [CodeFits.Statement, encode, plainWord, formatWidth]
theorem CodeFits.rBitLow : CodeFits.Statement .rBitLow := by
  simp [CodeFits.Statement, encode, plainWord, formatWidth]
theorem CodeFits.rBitHigh : CodeFits.Statement .rBitHigh := by
  simp [CodeFits.Statement, encode, plainWord, formatWidth]
theorem CodeFits.rParLow : CodeFits.Statement .rParLow := by
  simp [CodeFits.Statement, encode, plainWord, formatWidth]
theorem CodeFits.rParHigh : CodeFits.Statement .rParHigh := by
  simp [CodeFits.Statement, encode, plainWord, formatWidth]
theorem CodeFits.rStopLow : CodeFits.Statement .rStopLow := by
  simp [CodeFits.Statement, encode, plainWord, formatWidth]
theorem CodeFits.rStopHigh : CodeFits.Statement .rStopHigh := by
  simp [CodeFits.Statement, encode, plainWord, formatWidth]
theorem CodeFits.busStateReserved23 : CodeFits.Statement .busStateReserved23 := by
  simp [CodeFits.Statement, encode, plainWord, formatWidth]
theorem CodeFits.busStateReserved24to31 (low : BitVec 3) : CodeFits.Statement (.busStateReserved24to31 low) := by
  have h := append_toNat_lt 3#13 low
  simpa [CodeFits.Statement, encode, plainWord, formatWidth] using h
theorem CodeFits.dUninit : CodeFits.Statement .dUninit := by
  simp [CodeFits.Statement, encode, plainWord, formatWidth]
theorem CodeFits.dAttachSettle : CodeFits.Statement .dAttachSettle := by
  simp [CodeFits.Statement, encode, plainWord, formatWidth]
theorem CodeFits.dResetCmd : CodeFits.Statement .dResetCmd := by
  simp [CodeFits.Statement, encode, plainWord, formatWidth]
theorem CodeFits.dResetAck : CodeFits.Statement .dResetAck := by
  simp [CodeFits.Statement, encode, plainWord, formatWidth]
theorem CodeFits.dResetB1 : CodeFits.Statement .dResetB1 := by
  simp [CodeFits.Statement, encode, plainWord, formatWidth]
theorem CodeFits.dResetB2 : CodeFits.Statement .dResetB2 := by
  simp [CodeFits.Statement, encode, plainWord, formatWidth]
theorem CodeFits.dRemoteCmd : CodeFits.Statement .dRemoteCmd := by
  simp [CodeFits.Statement, encode, plainWord, formatWidth]
theorem CodeFits.dRemoteAck : CodeFits.Statement .dRemoteAck := by
  simp [CodeFits.Statement, encode, plainWord, formatWidth]
theorem CodeFits.dRateCmd : CodeFits.Statement .dRateCmd := by
  simp [CodeFits.Statement, encode, plainWord, formatWidth]
theorem CodeFits.dRateCmdAck : CodeFits.Statement .dRateCmdAck := by
  simp [CodeFits.Statement, encode, plainWord, formatWidth]
theorem CodeFits.dRateVal : CodeFits.Statement .dRateVal := by
  simp [CodeFits.Statement, encode, plainWord, formatWidth]
theorem CodeFits.dRateValAck : CodeFits.Statement .dRateValAck := by
  simp [CodeFits.Statement, encode, plainWord, formatWidth]
theorem CodeFits.dResCmd : CodeFits.Statement .dResCmd := by
  simp [CodeFits.Statement, encode, plainWord, formatWidth]
theorem CodeFits.dResCmdAck : CodeFits.Statement .dResCmdAck := by
  simp [CodeFits.Statement, encode, plainWord, formatWidth]
theorem CodeFits.dResVal : CodeFits.Statement .dResVal := by
  simp [CodeFits.Statement, encode, plainWord, formatWidth]
theorem CodeFits.dResValAck : CodeFits.Statement .dResValAck := by
  simp [CodeFits.Statement, encode, plainWord, formatWidth]
theorem CodeFits.dInitSettle : CodeFits.Statement .dInitSettle := by
  simp [CodeFits.Statement, encode, plainWord, formatWidth]
theorem CodeFits.dPollCmd : CodeFits.Statement .dPollCmd := by
  simp [CodeFits.Statement, encode, plainWord, formatWidth]
theorem CodeFits.dPollAck : CodeFits.Statement .dPollAck := by
  simp [CodeFits.Statement, encode, plainWord, formatWidth]
theorem CodeFits.dPollStatus : CodeFits.Statement .dPollStatus := by
  simp [CodeFits.Statement, encode, plainWord, formatWidth]
theorem CodeFits.dPollX : CodeFits.Statement .dPollX := by
  simp [CodeFits.Statement, encode, plainWord, formatWidth]
theorem CodeFits.dPollY : CodeFits.Statement .dPollY := by
  simp [CodeFits.Statement, encode, plainWord, formatWidth]
theorem CodeFits.dPollWait : CodeFits.Statement .dPollWait := by
  simp [CodeFits.Statement, encode, plainWord, formatWidth]
theorem CodeFits.drvStateReserved23 : CodeFits.Statement .drvStateReserved23 := by
  simp [CodeFits.Statement, encode, plainWord, formatWidth]
theorem CodeFits.drvStateReserved24to31 (low : BitVec 3) : CodeFits.Statement (.drvStateReserved24to31 low) := by
  have h := append_toNat_lt 3#13 low
  simpa [CodeFits.Statement, encode, plainWord, formatWidth] using h
theorem CodeFits.cmdReset : CodeFits.Statement .cmdReset := by
  simp [CodeFits.Statement, encode, plainWord, formatWidth]
theorem CodeFits.cmdRemoteMode : CodeFits.Statement .cmdRemoteMode := by
  simp [CodeFits.Statement, encode, plainWord, formatWidth]
theorem CodeFits.cmdSetRate : CodeFits.Statement .cmdSetRate := by
  simp [CodeFits.Statement, encode, plainWord, formatWidth]
theorem CodeFits.argRate200 : CodeFits.Statement .argRate200 := by
  simp [CodeFits.Statement, encode, plainWord, formatWidth]
theorem CodeFits.cmdSetResolution : CodeFits.Statement .cmdSetResolution := by
  simp [CodeFits.Statement, encode, plainWord, formatWidth]
theorem CodeFits.argResolution3 : CodeFits.Statement .argResolution3 := by
  simp [CodeFits.Statement, encode, plainWord, formatWidth]
theorem CodeFits.cmdRequestData : CodeFits.Statement .cmdRequestData := by
  simp [CodeFits.Statement, encode, plainWord, formatWidth]
theorem CodeFits.frameH2D (b : Byte) (p : Bool) : CodeFits.Statement (.frameH2D b p) := by
  have h := append_toNat_lt 1#6 (BitVec.ofBool p ++ (b ++ 0#1))
  simpa [CodeFits.Statement, encode, plainWord, formatWidth] using h
theorem CodeFits.frameD2H (start : Bool) (b : Byte) (p stop : Bool) : CodeFits.Statement (.frameD2H start b p stop) := by
  have h := append_toNat_lt 0#5 (BitVec.ofBool stop ++ (BitVec.ofBool p ++ (b ++ BitVec.ofBool start)))
  simpa [CodeFits.Statement, encode, plainWord, formatWidth] using h
theorem CodeFits.reportStatus (status rawx rawy : Byte) : CodeFits.Statement (.reportStatus status rawx rawy) := by
  have h := append_toNat_lt 0#8 status
  simpa [CodeFits.Statement, encode, plainWord, formatWidth] using h

end Sys2Proof.Laws
end

