-- ==== Sys2Proof/Laws/Report.lean ====
section
/-! SUPPORT. What a run of `ADVANCE`s does while a frame of a report comes in: the engine alone moves until its last step,
and the driver takes the byte there (R161, R192 to R196). -/

namespace Sys2Proof.Machine

@[simp] theorem runAdvances_nil (s : State) : runAdvances [] s = .next s := rfl

@[simp] theorem runAdvances_cons (p : Phase) (ps : List Phase) (s : State) :
    runAdvances (p :: ps) s = andThen (execAdvance (samplePhase p s)) (runAdvances ps) := rfl

@[simp] theorem andThen_next (s : State) (f : State → Answer) : andThen (.next s) f = f s := rfl

theorem runAdvances_append (ps qs : List Phase) (s : State) :
    runAdvances (ps ++ qs) s = andThen (runAdvances ps s) (runAdvances qs) := by
  induction ps generalizing s with
  | nil => rfl
  | cons p rest ih =>
    simp only [List.cons_append, runAdvances_cons]
    cases execAdvance (samplePhase p s) <;> simp [andThen, ih]

/-- What each sample and each `ADVANCE` keeps, a run of them keeps. -/
theorem runAdvances_keeps {P : State → Prop} (hp : ∀ p s, P s → P (samplePhase p s))
    (ha : ∀ s t, P s → execAdvance s = .next t → P t) {ps : List Phase} {s t : State} (h : P s)
    (e : runAdvances ps s = .next t) : P t := by
  induction ps generalizing s with
  | nil => cases e; exact h
  | cons p rest ih =>
    obtain ⟨u, hu, e⟩ := andThen_next_iff.1 e
    exact ih (ha _ _ (hp p s h) hu) e

/-- A report that is not awaited changes nothing; one that is, is a run of `ADVANCE`s. -/
theorem execReportStatus_next {status rawx rawy : Byte} {s t : State}
    (e : execReportStatus status rawx rawy s = .next t) :
    (reportAwaited s = false ∧ t = s) ∨
    (reportAwaited s = true ∧ runAdvances (reportPhases status rawx rawy) s = .next t) := by
  unfold execReportStatus at e
  split_ifs at e with h
  · exact .inr ⟨h, e⟩
  · cases e
    exact .inl ⟨by simpa using h, rfl⟩

/-- A driver that waits for an operation does nothing while one is pending (R111). -/
theorem driverStep_busy {s : State} (hd : awaitsRead s.drv.dstate = true ∨ awaitsWrite s.drv.dstate = true)
    (hb : s.eng.busy = true) : driverStep s = .next s := by
  unfold driverStep
  cases h : s.drv.dstate <;>
    simp_all [awaitsRead, awaitsWrite, ruleDResetCmd, ruleDResetAck, ruleDResetB1, ruleDResetB2, ruleDRemoteCmd,
      ruleDRemoteAck, ruleDRateCmd, ruleDRateCmdAck, ruleDRateVal, ruleDRateValAck, ruleDResCmd, ruleDResCmdAck,
      ruleDResVal, ruleDResValAck, ruleDPollCmd, ruleDPollAck, ruleDPollStatus, ruleDPollX, ruleDPollY, whenIdle]

/-- While the operation stays pending, `ADVANCE`s are `STEP`s (R161). -/
theorem runAdvances_of_busy {ps : List Phase} {s : State} (hd : awaitsRead s.drv.dstate = true)
    (h : ∀ n, n < ps.length → (runPhases (ps.take (n + 1)) s).eng.busy = true) :
    runAdvances ps s = .next (runPhases ps s) := by
  induction ps generalizing s with
  | nil => rfl
  | cons p rest ih =>
    have h0 : (engineStep (samplePhase p s)).eng.busy = true := by simpa using h 0 (by simp)
    have hd' : awaitsRead (engineStep (samplePhase p s)).drv.dstate = true := by simpa [samplePhase] using hd
    rw [runAdvances_cons, execAdvance, driverStep_busy (.inl hd') h0]
    exact ih hd' fun n hn => by simpa using h (n + 1) (by simpa using hn)

/-- How far a read has come, in steps of the engine. -/
def readProgress (e : Engine) : Nat :=
  match e.bstate with
  | .bIdle => 0
  | .rFreeDelay => 1
  | .rStartLow => 2
  | .rStartSettle => 3
  | .rStartRise => 4
  | .rBitLow => 5 + 2 * e.cnt.toNat
  | .rBitHigh => 6 + 2 * e.cnt.toNat
  | .rParLow => 21
  | .rParHigh => 22
  | .rStopLow => 23
  | .rStopHigh => 24
  | _ => 25

/-- The bit counter before its wrap (R96). -/
theorem counter_next : ∀ {c : BitVec 3}, c ≠ 7#3 → (c.toNat + 1) % 8 = c.toNat + 1 := by decide

/-- A pending read stays pending for all but its last step, and comes at most one step further by each. -/
theorem engineStep_readProgress {s : State} (hb : s.eng.busy = true) (ho : s.eng.op = .read)
    (hp : readProgress s.eng < 24) :
    (engineStep s).eng.busy = true ∧ (engineStep s).eng.op = .read ∧
      readProgress (engineStep s).eng ≤ readProgress s.eng + 1 := by
  unfold engineStep
  have hc := s.eng.cnt.isLt
  cases hq : s.eng.bstate <;> simp only [readProgress, hq] at hp ⊢ <;> try omega
  all_goals
    simp only [ruleBIdle, ruleRFreeDelay, ruleRStartLow, ruleRStartSettle, ruleRStartRise, ruleRBitLow, ruleRBitHigh,
      ruleRParLow, ruleRParHigh, ruleRStopLow, hb, ho, if_true]
    try split_ifs
  all_goals simp_all [counter_next]
  all_goals omega

/-- Along a read: pending until its last step. -/
theorem runPhases_readProgress {ps : List Phase} {s : State} (hb : s.eng.busy = true) (ho : s.eng.op = .read)
    (hp : readProgress s.eng + ps.length ≤ 24) : (runPhases ps s).eng.busy = true := by
  induction ps generalizing s with
  | nil => exact hb
  | cons p rest ih =>
    simp only [List.length_cons] at hp
    obtain ⟨h1, h2, h3⟩ := engineStep_readProgress (s := samplePhase p s) hb ho (by simp only [samplePhase]; omega)
    exact ih h1 h2 (by simp only [samplePhase] at h3 ⊢; omega)

/-- A frame that completes its read with its last step at the earliest: the engine's steps, then one `ADVANCE`. -/
theorem runAdvances_read_last {ps : List Phase} {last : Phase} {s : State} (hd : awaitsRead s.drv.dstate = true)
    (hb : s.eng.busy = true) (ho : s.eng.op = .read) (hp : readProgress s.eng + ps.length ≤ 24) :
    runAdvances (ps ++ [last]) s = execAdvance (samplePhase last (runPhases ps s)) := by
  have h : ∀ n, n < ps.length → (runPhases (ps.take (n + 1)) s).eng.busy = true := fun n hn =>
    runPhases_readProgress hb ho (by simp only [List.length_take]; omega)
  rw [runAdvances_append, runAdvances_of_busy hd h, andThen_next, runAdvances_cons]
  cases execAdvance (samplePhase last (runPhases ps s)) <;> rfl

/-- The same, as the driver's transition after all the engine's steps. -/
theorem runAdvances_read {ps : List Phase} {last : Phase} {s : State} (hd : awaitsRead s.drv.dstate = true)
    (hb : s.eng.busy = true) (ho : s.eng.op = .read) (hp : readProgress s.eng + ps.length ≤ 24) :
    runAdvances (ps ++ [last]) s = driverStep (runPhases (ps ++ [last]) s) := by
  rw [runAdvances_read_last hd hb ho hp, runPhases_append, runPhases_cons, runPhases_nil, execAdvance]

/-- The frame of one report byte under a read the driver waits for: the whole read, then the driver's transition. -/
theorem runAdvances_reportFrame (b : Byte) {s : State} {x y : LineId} (hd : awaitsRead s.drv.dstate = true)
    (hq : s.eng.bstate = .bIdle) (hb : s.eng.busy = true) (ho : s.eng.op = .read) (hx : s.eng.clockLine = some x)
    (hy : s.eng.dataLine = some y) (hxy : x ≠ y) :
    runAdvances (reportFrame b) s = driverStep { s with
      env := { now := s.env.now + 51#32 + 1#32 + 6#32 + 1#32 + 20#32, devC := false, devD := false }
      eng := { s.eng with t := s.env.now + 51#32 + 1#32, rx := b, cnt := 0#3, busy := false, bstate := .bIdle }
      modes := setMode (setMode (setMode s.modes x .released) y .released) x .assertedLow } := by
  have e : reportFrame b = (reportFrame b).dropLast ++ [{ gap := 1#32, devC := false, devD := false }] := by rfl
  have hp : readProgress s.eng = 0 := by simp [readProgress, hq]
  rw [e, runAdvances_read hd hb ho (by rw [hp]; exact Nat.le_refl 24), ← e, reportFrame,
    runPhases_readPhases false b _ true hq hb ho hx hy hxy]
  rfl

/-- The same under a read that waits for its start bit with both lines released. -/
theorem runAdvances_reportFrame_waiting (b : Byte) {s : State} (hd : awaitsRead s.drv.dstate = true)
    (hq : s.eng.bstate = .rFreeDelay ∨ s.eng.bstate = .rStartLow) (hb : s.eng.busy = true) (ho : s.eng.op = .read)
    (hf : LinesFree s) :
    runAdvances (reportFrame b) s = driverStep { s with
      env := { now := s.env.now + 51#32 + 1#32 + 6#32 + 1#32 + 20#32, devC := false, devD := false }
      eng := { s.eng with t := s.env.now + 51#32 + 1#32, rx := b, cnt := 0#3, busy := false, bstate := .bIdle }
      modes := setModeAt s.modes s.eng.clockLine .assertedLow } := by
  have hh := runPhases_readHead_waiting false hq hf
  have hp : readProgress s.eng ≤ 2 := by rcases hq with h | h <;> simp [readProgress, h]
  have h5 : runAdvances (readHead false) s = .next (runPhases (readHead false) s) :=
    runAdvances_of_busy hd fun n hn => runPhases_readProgress hb ho (by
      simp only [List.length_take, readHead, List.length_cons, List.length_nil] at hn ⊢; omega)
  have e := readPhases_eq false b (parityOfByte b) true
  generalize hc : readCell (b.getLsbD 0) ++ readCell (b.getLsbD 1) ++ readCell (b.getLsbD 2) ++
        readCell (b.getLsbD 3) ++ readCell (b.getLsbD 4) ++ readCell (b.getLsbD 5) ++ readCell (b.getLsbD 6) ++
        readCell (b.getLsbD 7) ++ readCell (parityOfByte b) ++ readCell true = cells at e
  have e' : cells = cells.dropLast ++ [{ gap := 1#32, devC := false, devD := false }] := by subst hc; rfl
  have hl : cells.dropLast.length = 19 := by subst hc; rfl
  rw [reportFrame, e, runAdvances_append, h5, andThen_next, e',
    runAdvances_read (by simpa [hh] using hd) (by simpa [hh] using hb) (by simpa [hh] using ho)
      (by simp [hh, readProgress, hl]), ← e', ← hc, hh]
  rw [runPhases_readCells b (parityOfByte b) true (by rfl) (by rfl) (by rfl)]
  · rfl
  · exact ⟨hf.different, hf.clock, hf.data⟩

end Sys2Proof.Machine
end

