-- ==== Sys2Proof/Tests/Slice0.lean ====
section
/-! SUPPORT. The model's own tests: which terms are ill formed, words written out from the tables of
spec/30_encoding.md, vectors of spec/95_test_vectors.md (named in each comment), and for every statement with
hypotheses a state and operands that meet them. -/

namespace Sys2Proof.Tests

-- One after the other: side by side these many small proofs would each hold a thread.
set_option Elab.async false

open Sys2Proof.Machine

-- Well-formedness: one ill-formed term for each check.

theorem test_parity_cell_of_a_frame_is_checked :
    (Instr.frameH2D 0x01#8 false).wellFormed = false ∧ (Instr.frameH2D 0xFF#8 true).wellFormed = false ∧
    (Instr.frameH2D 0x01#8 true).wellFormed = true ∧ (Instr.frameH2D 0xFF#8 false).wellFormed = true := by decide

theorem test_reserved_operations_are_ill_formed :
    (Instr.engReserved 0#1).wellFormed = false ∧ Instr.drvReserved.wellFormed = false := by decide

theorem test_reserved_states_are_ill_formed :
    Instr.busStateReserved23.wellFormed = false ∧ (Instr.busStateReserved24to31 7#3).wellFormed = false ∧
    Instr.drvStateReserved23.wellFormed = false ∧ (Instr.drvStateReserved24to31 0#3).wellFormed = false := by decide

-- Decoding: every row's word written out, first code bit rightmost (R61 to R70).

theorem test_decode_engine_operations :
    decode { plainWord .engOp 0b000#16 with lineC := some 2, lineD := some 3 } = .ok (.assign (some 2) (some 3)) ∧
    decode { plainWord .engOp 0b000#16 with lineD := some 3 } = .ok (.assign none (some 3)) ∧
    decode { plainWord .engOp 0b001#16 with wbyte := 0xC8#8 } = .ok (.reqw 0xC8#8) ∧
    decode (plainWord .engOp 0b010#16) = .ok .reqr ∧
    decode (plainWord .engOp 0b011#16) = .ok .isBusy ∧
    decode (plainWord .engOp 0b100#16) = .ok .take ∧
    decode (plainWord .engOp 0b101#16) = .ok .step ∧
    decode (plainWord .engOp 0b110#16) = .ok (.engReserved 0#1) ∧
    decode (plainWord .engOp 0b111#16) = .ok (.engReserved 1#1) ∧
    decode (plainWord .engOp 0b1000#16) = .error .codeTooWide := by decide

theorem test_decode_driver_operations :
    decode { plainWord .drvOp 0b00#16 with lineC := some 2, lineD := some 3 } = .ok (.attach (some 2) (some 3)) ∧
    decode (plainWord .drvOp 0b01#16) = .ok .advance ∧
    decode (plainWord .drvOp 0b10#16) = .ok .position ∧
    decode (plainWord .drvOp 0b11#16) = .ok .drvReserved ∧
    decode (plainWord .drvOp 0b100#16) = .error .codeTooWide := by decide

theorem test_decode_bus_states_of_a_write :
    decode (plainWord .busState 0b00000#16) = .ok .bUninit ∧
    decode (plainWord .busState 0b00001#16) = .ok .bIdle ∧
    decode (plainWord .busState 0b00010#16) = .ok .wSettle ∧
    decode (plainWord .busState 0b00011#16) = .ok .wInhibit ∧
    decode (plainWord .busState 0b00100#16) = .ok .wStart ∧
    decode (plainWord .busState 0b00101#16) = .ok .wDevClk ∧
    decode (plainWord .busState 0b00110#16) = .ok .wBitRise ∧
    decode (plainWord .busState 0b00111#16) = .ok .wBitFall ∧
    decode (plainWord .busState 0b01000#16) = .ok .wParRise ∧
    decode (plainWord .busState 0b01001#16) = .ok .wParFall ∧
    decode (plainWord .busState 0b01010#16) = .ok .wStopDelay ∧
    decode (plainWord .busState 0b01011#16) = .ok .wStopClkLow ∧
    decode (plainWord .busState 0b01100#16) = .ok .wStopBothHigh := by decide

theorem test_decode_bus_states_of_a_read :
    decode (plainWord .busState 0b01101#16) = .ok .rFreeDelay ∧
    decode (plainWord .busState 0b01110#16) = .ok .rStartLow ∧
    decode (plainWord .busState 0b01111#16) = .ok .rStartSettle ∧
    decode (plainWord .busState 0b10000#16) = .ok .rStartRise ∧
    decode (plainWord .busState 0b10001#16) = .ok .rBitLow ∧
    decode (plainWord .busState 0b10010#16) = .ok .rBitHigh ∧
    decode (plainWord .busState 0b10011#16) = .ok .rParLow ∧
    decode (plainWord .busState 0b10100#16) = .ok .rParHigh ∧
    decode (plainWord .busState 0b10101#16) = .ok .rStopLow ∧
    decode (plainWord .busState 0b10110#16) = .ok .rStopHigh ∧
    decode (plainWord .busState 0b10111#16) = .ok .busStateReserved23 ∧
    decode (plainWord .busState 0b11000#16) = .ok (.busStateReserved24to31 0b000#3) ∧
    decode (plainWord .busState 0b11110#16) = .ok (.busStateReserved24to31 0b110#3) ∧
    decode (plainWord .busState 0b100000#16) = .error .codeTooWide := by decide

theorem test_decode_driver_states_of_the_start :
    decode (plainWord .drvState 0b00000#16) = .ok .dUninit ∧
    decode (plainWord .drvState 0b00001#16) = .ok .dAttachSettle ∧
    decode (plainWord .drvState 0b00010#16) = .ok .dResetCmd ∧
    decode (plainWord .drvState 0b00011#16) = .ok .dResetAck ∧
    decode (plainWord .drvState 0b00100#16) = .ok .dResetB1 ∧
    decode (plainWord .drvState 0b00101#16) = .ok .dResetB2 ∧
    decode (plainWord .drvState 0b00110#16) = .ok .dRemoteCmd ∧
    decode (plainWord .drvState 0b00111#16) = .ok .dRemoteAck ∧
    decode (plainWord .drvState 0b01000#16) = .ok .dRateCmd ∧
    decode (plainWord .drvState 0b01001#16) = .ok .dRateCmdAck ∧
    decode (plainWord .drvState 0b01010#16) = .ok .dRateVal ∧
    decode (plainWord .drvState 0b01011#16) = .ok .dRateValAck ∧
    decode (plainWord .drvState 0b01100#16) = .ok .dResCmd ∧
    decode (plainWord .drvState 0b01101#16) = .ok .dResCmdAck ∧
    decode (plainWord .drvState 0b01110#16) = .ok .dResVal ∧
    decode (plainWord .drvState 0b01111#16) = .ok .dResValAck ∧
    decode (plainWord .drvState 0b10000#16) = .ok .dInitSettle := by decide

theorem test_decode_driver_states_of_a_poll :
    decode (plainWord .drvState 0b10001#16) = .ok .dPollCmd ∧
    decode (plainWord .drvState 0b10010#16) = .ok .dPollAck ∧
    decode (plainWord .drvState 0b10011#16) = .ok .dPollStatus ∧
    decode (plainWord .drvState 0b10100#16) = .ok .dPollX ∧
    decode (plainWord .drvState 0b10101#16) = .ok .dPollY ∧
    decode (plainWord .drvState 0b10110#16) = .ok .dPollWait ∧
    decode (plainWord .drvState 0b10111#16) = .ok .drvStateReserved23 ∧
    decode (plainWord .drvState 0b11001#16) = .ok (.drvStateReserved24to31 0b001#3) ∧
    decode (plainWord .drvState 0b11111#16) = .ok (.drvStateReserved24to31 0b111#3) ∧
    decode (plainWord .drvState 0b100000#16) = .error .codeTooWide := by decide

theorem test_decode_command_bytes :
    decode (plainWord .cmdByte 0b11111111#16) = .ok .cmdReset ∧
    decode (plainWord .cmdByte 0b11110000#16) = .ok .cmdRemoteMode ∧
    decode (plainWord .cmdByte 0b11110011#16) = .ok .cmdSetRate ∧
    decode (plainWord .cmdByte 0b11001000#16) = .ok .argRate200 ∧
    decode (plainWord .cmdByte 0b11101000#16) = .ok .cmdSetResolution ∧
    decode (plainWord .cmdByte 0b00000011#16) = .ok .argResolution3 ∧
    decode (plainWord .cmdByte 0b11101011#16) = .ok .cmdRequestData ∧
    decode (plainWord .cmdByte 0b11110100#16) = .error .noCommandByte := by decide

/-- 0xC8 has an odd number of ones: cells `0 00010011 1 1`, the first in bit 0. -/
theorem test_decode_frames :
    decode (plainWord .frameH2D 0b11110010000#16) = .ok (.frameH2D 0xC8#8 true) ∧
    decode (plainWord .frameH2D 0b11110010001#16) = .error .startCellNotZero ∧
    decode (plainWord .frameH2D 0b01110010000#16) = .error .stopCellNotOne ∧
    decode (plainWord .frameH2D 0b100000000000#16) = .error .codeTooWide ∧
    decode (plainWord .frameD2H 0b01110010001#16) = .ok (.frameD2H true 0xC8#8 true false) ∧
    decode (plainWord .frameD2H 0b100000000000#16) = .error .codeTooWide := by decide

theorem test_decode_report :
    decode { plainWord .report 0b00010000#16 with xbyte := 0x80#8, ybyte := 0x05#8 } =
      .ok (.reportStatus 0x10#8 0x80#8 0x05#8) ∧
    decode (plainWord .report 0b100000000#16) = .error .codeTooWide := by decide

/-- The bare words of the opcode table: the first row in the table's order takes an overlapping code (log entry 2). -/
theorem test_table_words :
    decodeTableWord 8 0x05 = some .step ∧ decodeTableWord 8 0x00 = some (.assign none none) ∧
    decodeTableWord 8 0x16 = some .rStopHigh ∧ decodeTableWord 8 0xEB = some .cmdRequestData ∧
    decodeTableWord 8 0xA0 = some (.reportStatus 0xA0#8 0x00#8 0x00#8) ∧
    decodeTableWord 16 0x602 = some (.frameH2D 0x01#8 true) ∧
    decodeTableWord 16 0x001 = some (.frameD2H true 0x00#8 false false) ∧
    decodeTableWord 16 0x800 = none ∧ decodeTableWord 16 0x10000 = none := by decide

-- One step on a small state.

/-- The next state of an answer, where it is one. -/
def nextOf (a : Answer) : Option State :=
  match a with
  | .next s => some s
  | .fault _ => none
  | .refused _ => none

/-- The reason of a refusal, where an answer is one. -/
def refusalOf (a : Answer) : Option Refusal :=
  match a with
  | .next _ => none
  | .fault _ => none
  | .refused r => some r

/-- `s` about to run `i` with the inputs `e`. -/
def calling (i : Instr) (e : Sample) (s : State) : State :=
  { s with calls := [{ word := encode i, sample := e }] }

/-- The state one step leaves. -/
def after (i : Instr) (e : Sample) (s : State) : Option State :=
  nextOf (step (calling i e s))

/-- What one step is refused for. -/
def refused (i : Instr) (e : Sample) (s : State) : Option Refusal :=
  refusalOf (step (calling i e s))

/-- Inputs at time `now`, no line pulled by the device. -/
def at' (now : Micros) : Sample := { now := now, devC := false, devD := false }

/-- Inputs with the clock pulled low by the device. -/
def clkL : Sample := { now := 0#32, devC := true, devD := false }

/-- Inputs with the data line pulled low by the device. -/
def datL : Sample := { now := 0#32, devC := false, devD := true }

/-- Inputs with both lines pulled low by the device. -/
def bothL : Sample := { now := 0#32, devC := true, devD := true }

/-- After power-on, on a platform with the default `line_valid`. -/
def unbound : State := { State.reset with platform := .standard }

/-- The engine bound to lines 2 (clock) and 3 (data), idle, both lines released: vector O1. -/
def idle : State :=
  { unbound with
    eng := { Engine.powerOn with bstate := .bIdle, clockLine := some 2, dataLine := some 3 }
    modes := [(2, .released), (3, .released)] }

/-- A write in state `q` with the timestamp `t`. -/
def writing (q : BusState) (t : Micros) : State :=
  { idle with eng := { idle.eng with bstate := q, busy := true, op := .write, t := t } }

/-- A write in a data cell: shift register, counter and parity. -/
def writingBit (q : BusState) (sh : Byte) (cnt : BitVec 3) (par : Bool) : State :=
  { idle with eng := { idle.eng with bstate := q, busy := true, op := .write, sh := sh, cnt := cnt, par := par } }

/-- A read in state `q` with the timestamp `t`. -/
def reading (q : BusState) (t : Micros) : State :=
  { idle with eng := { idle.eng with bstate := q, busy := true, op := .read, t := t } }

/-- A read in a data cell. -/
def readingBit (q : BusState) (cnt : BitVec 3) (rx : Byte) : State :=
  { idle with eng := { idle.eng with bstate := q, busy := true, op := .read, cnt := cnt, rx := rx } }

/-- The driver in state `q` over an idle engine that has received `rx`; the clock is held low (R22 (e)). -/
def driving (q : DrvState) (rx : Byte) : State :=
  { idle with
    eng := { idle.eng with op := .read, rx := rx }
    drv := { idle.drv with dstate := q }
    modes := [(2, .assertedLow), (3, .released)] }

/-- `hc` and `hd`: the block's drive of lines 2 and 3. -/
structure Drives where
  hc : Option DriveMode
  hd : Option DriveMode
deriving DecidableEq, Repr

/-- The drive of a state. -/
def drive (t : State) : Drives := { hc := modeOf t.modes 2, hd := modeOf t.modes 3 }

/-- The drive `hc = L`, `hd = Z`, and so on. -/
def dLZ : Drives := { hc := some .assertedLow, hd := some .released }
def dZZ : Drives := { hc := some .released, hd := some .released }
def dZL : Drives := { hc := some .released, hd := some .assertedLow }

/-- What a data cell of a write shows. -/
structure Cell where
  bstate : BusState
  par : Bool
  sh : Byte
  cnt : BitVec 3
  drives : Drives
deriving DecidableEq, Repr

/-- The cell of a state. -/
def cell (t : State) : Cell :=
  { bstate := t.eng.bstate, par := t.eng.par, sh := t.eng.sh, cnt := t.eng.cnt, drives := drive t }

/-- The request the driver issues: what is pending, the byte latched, the driver's next state. -/
structure Issued where
  busy : Bool
  op : OpKind
  sh : Byte
  dstate : DrvState
deriving DecidableEq, Repr

/-- The request of a state. -/
def issued (t : State) : Issued :=
  { busy := t.eng.busy, op := t.eng.op, sh := t.eng.sh, dstate := t.drv.dstate }

/-- O1. -/
theorem test_assign_binds_and_releases :
    after (.assign (some 2) (some 3)) (at' 0#32) unbound = some idle := by decide

/-- O2, O3. -/
theorem test_assign_of_an_invalid_pair :
    after (.assign none (some 3)) (at' 0#32) State.reset = some State.reset ∧
    after (.assign (some 4) (some 4)) (at' 0#32) unbound = some unbound := by decide

/-- R5: a platform binds the pairs it admits, whichever they are. -/
theorem test_assign_on_another_platform :
    (after (.assign (some 4) (some 4)) (at' 0#32) { State.reset with platform := .only [(4, 4)] }).map
      (fun t => (t.eng.bstate, t.modes)) = some (.bIdle, [(4, .released)]) ∧
    (after (.assign (some 2) (some 3)) (at' 0#32) { State.reset with platform := .only [(4, 4)] }).map
      (fun t => t.eng.bstate) = some .bUninit := by decide

/-- O14: a stalled write is abandoned, both lines released. -/
theorem test_assign_while_stalled :
    (after (.assign (some 2) (some 3)) (at' 0#32)
      { writing .wDevClk 704#32 with modes := [(2, .released), (3, .assertedLow)] }).map
        (fun t => (t.eng, drive t)) = some (idle.eng, dZZ) := by decide

/-- O7. -/
theorem test_reqw_queues :
    after (.reqw 0x01#8) (at' 0#32) idle =
      some { idle with eng := { idle.eng with busy := true, op := .write, sh := 0x01#8 } } := by decide

/-- O4, O13. -/
theorem test_reqw_unbound_and_busy :
    after (.reqw 0xFF#8) (at' 0#32) State.reset = some State.reset ∧
    refused (.reqw 0x55#8) (at' 0#32) (writing .wBitFall 0#32) = some .requestWhileBusy := by decide

/-- O8. -/
theorem test_reqr_keeps_the_receive_byte :
    (after .reqr (at' 0#32) (driving .dUninit 0xA5#8)).map (fun t => (t.eng.busy, t.eng.op, t.eng.rx, drive t)) =
      some (true, .read, 0xA5#8, dLZ) := by decide

/-- O9 and the end of P1. -/
theorem test_isbusy :
    (after .isBusy (at' 0#32) (writing .bIdle 0#32)).map (fun t => t.result) = some (.bit true) ∧
    (after .isBusy (at' 0#32) idle).map (fun t => t.result) = some (.bit false) := by decide

/-- O6, O15. -/
theorem test_take :
    (after .take (at' 0#32) State.reset).map (fun t => t.result) = some (.byte 0x00#8) ∧
    (after .take (at' 0#32) (readingBit .rBitLow 3#3 0x05#8)).map (fun t => (t.result, t.eng.rx)) =
      some (.byte 0x05#8, 0x05#8) := by decide

/-- O5, O10. -/
theorem test_step_with_nothing_to_do :
    after .step (at' 0#32) State.reset = some State.reset ∧ after .step (at' 0#32) idle = some idle := by decide

/-- O11: the dispatch of a write clears `cnt` and `par` and releases the lines. -/
theorem test_step_dispatches_a_write :
    (after .step (at' 1000#32)
      { writingBit .bIdle 0x01#8 5#3 true with modes := [(2, .assertedLow), (3, .released)] }).map
        (fun t => (cell t, t.eng.t)) = some (Cell.mk .wSettle false 0x01#8 0#3 dZZ, 1000#32) := by decide

/-- O12: the dispatch of a read leaves `par`. -/
theorem test_idle_row_dispatches_a_read :
    (after .bIdle (at' 5000#32)
      { idle with
        eng := { idle.eng with busy := true, op := .read, par := true }
        modes := [(2, .assertedLow), (3, .released)] }).map
        (fun t => (t.eng.bstate, t.eng.t, t.eng.par, drive t)) =
      some (.rFreeDelay, 5000#32, true, dZZ) := by decide

/-- R110: the row of the unbound engine. -/
theorem test_uninit_row : after .bUninit bothL State.reset = some { State.reset with env := bothL } := by decide

/-- W1, W2. -/
theorem test_w_settle :
    after .wSettle (at' 1300#32) (writing .wSettle 1000#32) =
      some { writing .wSettle 1000#32 with env := at' 1300#32 } ∧
    (after .wSettle (at' 1301#32) (writing .wSettle 1000#32)).map (fun t => (t.eng.bstate, t.eng.t, drive t)) =
      some (.wInhibit, 1301#32, dLZ) := by decide

/-- W3, W4. -/
theorem test_w_inhibit :
    after .wInhibit (at' 1601#32) (writing .wInhibit 1301#32) =
      some { writing .wInhibit 1301#32 with env := at' 1601#32 } ∧
    (after .wInhibit (at' 1602#32) (writing .wInhibit 1301#32)).map (fun t => (t.eng.bstate, t.eng.t, drive t)) =
      some (.wStart, 1602#32, dZL) := by decide

/-- W5, W6. -/
theorem test_w_start :
    after .wStart (at' 1612#32) (writing .wStart 1602#32) =
      some { writing .wStart 1602#32 with env := at' 1612#32 } ∧
    (after .wStart (at' 1613#32)
      { writing .wStart 1602#32 with modes := [(2, .assertedLow), (3, .assertedLow)] }).map
        (fun t => (t.eng.bstate, t.eng.t, drive t)) = some (.wDevClk, 1602#32, dZL) := by decide

/-- W7, W8, W9. -/
theorem test_w_dev_clk :
    (after .wDevClk (at' 0#32) (writingBit .wDevClk 0x01#8 0#3 false)).map (fun t => t.eng.bstate) = some .wDevClk ∧
    (after .wDevClk clkL (writingBit .wDevClk 0x01#8 0#3 false)).map (fun t => (t.eng.bstate, drive t)) =
      some (.wBitRise, dZZ) ∧
    (after .wDevClk clkL (writingBit .wDevClk 0xC8#8 0#3 false)).map (fun t => (t.eng.bstate, drive t)) =
      some (.wBitRise, dZL) := by decide

/-- W10, W11. -/
theorem test_w_bit_rise :
    (after .wBitRise clkL (writing .wBitRise 0#32)).map (fun t => t.eng.bstate) = some .wBitRise ∧
    (after .wBitRise (at' 0#32) (writing .wBitRise 0#32)).map (fun t => t.eng.bstate) = some .wBitFall := by decide

/-- W12, W13, and the third row of the write of 0xC8 (section 2.2). -/
theorem test_w_bit_fall_next_bit :
    (after .wBitFall (at' 0#32) (writingBit .wBitFall 0x01#8 0#3 false)).map (fun t => t.eng.bstate) =
      some .wBitFall ∧
    (after .wBitFall clkL (writingBit .wBitFall 0x01#8 0#3 false)).map
      cell =
      some (Cell.mk .wBitRise true 0x00#8 1#3 dZL) ∧
    (after .wBitFall clkL (writingBit .wBitFall 0x32#8 2#3 false)).map
      cell =
      some (Cell.mk .wBitRise false 0x19#8 3#3 dZZ) := by decide

/-- W14, W15. -/
theorem test_w_bit_fall_last_bit :
    (after .wBitFall clkL (writingBit .wBitFall 0x01#8 7#3 false)).map
      cell =
      some (Cell.mk .wParRise true 0x00#8 0#3 dZZ) ∧
    (after .wBitFall clkL (writingBit .wBitFall 0x01#8 7#3 true)).map
      cell =
      some (Cell.mk .wParRise false 0x00#8 0#3 dZL) := by decide

/-- W16 and its false side. -/
theorem test_w_par_rise :
    (after .wParRise (at' 0#32) (writing .wParRise 0#32)).map (fun t => t.eng.bstate) = some .wParFall ∧
    (after .wParRise clkL (writing .wParRise 0#32)).map (fun t => t.eng.bstate) = some .wParRise := by decide

/-- W17. -/
theorem test_w_par_fall :
    (after .wParFall { now := 2350#32, devC := true, devD := false }
      { writing .wParFall 1602#32 with modes := [(2, .released), (3, .assertedLow)] }).map
        (fun t => (t.eng.bstate, t.eng.t, drive t)) = some (.wStopDelay, 2350#32, dZZ) := by decide

/-- W18, W19. -/
theorem test_w_stop_delay :
    (after .wStopDelay (at' 2400#32) (writing .wStopDelay 2350#32)).map (fun t => t.eng.bstate) = some .wStopDelay ∧
    (after .wStopDelay (at' 2401#32) (writing .wStopDelay 2350#32)).map (fun t => (t.eng.bstate, t.eng.t)) =
      some (.wStopClkLow, 2350#32) := by decide

/-- W20, W21, and the acknowledge cell of P1. -/
theorem test_w_stop_clk_low :
    (after .wStopClkLow (at' 0#32) (writing .wStopClkLow 0#32)).map (fun t => t.eng.bstate) = some .wStopClkLow ∧
    (after .wStopClkLow clkL (writing .wStopClkLow 0#32)).map (fun t => t.eng.bstate) = some .wStopBothHigh ∧
    (after .wStopClkLow bothL (writing .wStopClkLow 0#32)).map (fun t => t.eng.bstate) = some .wStopBothHigh := by
  decide

/-- W22, W23, W24. -/
theorem test_w_stop_both_high :
    (after .wStopBothHigh datL (writing .wStopBothHigh 0#32)).map (fun t => t.eng.bstate) = some .wStopBothHigh ∧
    (after .wStopBothHigh clkL (writing .wStopBothHigh 0#32)).map (fun t => t.eng.bstate) = some .wStopBothHigh ∧
    (after .wStopBothHigh (at' 0#32) (writing .wStopBothHigh 0#32)).map
      (fun t => (t.eng.bstate, t.eng.busy, drive t)) = some (.bIdle, false, dLZ) := by decide

/-- Q1, Q2. -/
theorem test_r_free_delay :
    (after .rFreeDelay (at' 5050#32) (reading .rFreeDelay 5000#32)).map (fun t => t.eng.bstate) = some .rFreeDelay ∧
    (after .rFreeDelay { now := 5051#32, devC := true, devD := false } (reading .rFreeDelay 5000#32)).map
      (fun t => t.eng.bstate) = some .rStartLow := by decide

/-- Q3, Q4. -/
theorem test_r_start_low :
    (after .rStartLow (at' 5060#32) (reading .rStartLow 5000#32)).map (fun t => t.eng.bstate) = some .rStartLow ∧
    (after .rStartLow { now := 5070#32, devC := true, devD := false } (reading .rStartLow 5000#32)).map
      (fun t => (t.eng.bstate, t.eng.t)) = some (.rStartSettle, 5070#32) := by decide

/-- Q5, Q6. -/
theorem test_r_start_settle :
    (after .rStartSettle (at' 5075#32) (reading .rStartSettle 5070#32)).map (fun t => t.eng.bstate) =
      some .rStartSettle ∧
    (after .rStartSettle (at' 5076#32) (reading .rStartSettle 5070#32)).map (fun t => t.eng.bstate) =
      some .rStartRise := by decide

/-- Q7, Q8. -/
theorem test_r_start_rise :
    (after .rStartRise clkL (readingBit .rStartRise 5#3 0x3C#8)).map (fun t => (t.eng.bstate, t.eng.rx)) =
      some (.rStartRise, 0x3C#8) ∧
    (after .rStartRise (at' 0#32) (readingBit .rStartRise 5#3 0x3C#8)).map
      (fun t => (t.eng.bstate, t.eng.cnt, t.eng.rx)) = some (.rBitLow, 0#3, 0x00#8) := by decide

/-- Q9, Q10. -/
theorem test_r_bit_low_first_bit :
    (after .rBitLow (at' 0#32) (readingBit .rBitLow 0#3 0x00#8)).map (fun t => (t.eng.bstate, t.eng.rx)) =
      some (.rBitLow, 0x00#8) ∧
    (after .rBitLow clkL (readingBit .rBitLow 0#3 0x00#8)).map (fun t => (t.eng.bstate, t.eng.rx)) =
      some (.rBitHigh, 0x01#8) := by decide

/-- R44: one line bound as clock and data has one level, so its clock-low reads 0, and a pull of either name holds it low
(log entry 28). -/
theorem test_one_line_has_one_level :
    (after .rBitLow clkL { readingBit .rBitLow 0#3 0xFF#8 with
      eng := { (readingBit .rBitLow 0#3 0xFF#8).eng with dataLine := some 2 } }).map
        (fun t => (t.eng.bstate, t.eng.rx)) = some (.rBitHigh, 0xFE#8) ∧
    (after .rBitHigh datL { readingBit .rBitHigh 0#3 0x00#8 with
      eng := { (readingBit .rBitHigh 0#3 0x00#8).eng with dataLine := some 2 } }).map
        (fun t => t.eng.bstate) = some .rBitHigh := by decide

/-- Q11, Q12. -/
theorem test_r_bit_low_writes_one_bit :
    (after .rBitLow clkL (readingBit .rBitLow 7#3 0x25#8)).map (fun t => t.eng.rx) = some 0xA5#8 ∧
    (after .rBitLow bothL (readingBit .rBitLow 2#3 0x07#8)).map (fun t => t.eng.rx) = some 0x03#8 := by decide

/-- P2, steps 10 and 24. -/
theorem test_r_bit_high :
    (after .rBitHigh (at' 0#32) (readingBit .rBitHigh 0#3 0x01#8)).map (fun t => (t.eng.bstate, t.eng.cnt)) =
      some (.rBitLow, 1#3) ∧
    (after .rBitHigh (at' 0#32) (readingBit .rBitHigh 7#3 0xA5#8)).map (fun t => (t.eng.bstate, t.eng.cnt)) =
      some (.rParLow, 0#3) := by decide

/-- P2, steps 25 and 26: the parity cell, whatever the data line. -/
theorem test_r_parity_cell :
    (after .rParLow bothL (readingBit .rParLow 0#3 0xA5#8)).map (fun t => (t.eng.bstate, t.eng.rx)) =
      some (.rParHigh, 0xA5#8) ∧
    (after .rParHigh datL (readingBit .rParHigh 0#3 0xA5#8)).map (fun t => t.eng.bstate) = some .rStopLow := by decide

/-- P2, step 27, with the data line low as well: a stop bit of 0 is not noticed (H3). -/
theorem test_r_stop_low :
    (after .rStopLow bothL (readingBit .rStopLow 0#3 0xA5#8)).map (fun t => (t.eng.bstate, t.eng.rx)) =
      some (.rStopHigh, 0xA5#8) := by decide

/-- P2, step 28. -/
theorem test_r_stop_high :
    (after .rStopHigh (at' 0#32) (readingBit .rStopHigh 0#3 0xA5#8)).map
      (fun t => (t.eng.bstate, t.eng.busy, t.eng.rx, drive t)) = some (.bIdle, false, 0xA5#8, dLZ) := by decide

/-- P4, last line. -/
theorem test_attach :
    (after (.attach (some 2) (some 3)) (at' 500#32) unbound).map
      (fun t => (t.eng, t.drv.dstate, t.drv.dt, drive t)) = some (idle.eng, .dAttachSettle, 500#32, dZZ) := by
  decide

/-- P4, first line; P5, last line: the position is kept. -/
theorem test_attach_invalid_and_again :
    after (.attach none (some 3)) (at' 0#32) State.reset = some State.reset ∧
    (after (.attach (some 2) (some 3)) (at' 7#32)
      { driving .dResetCmd 0x00#8 with drv := { (driving .dResetCmd 0x00#8).drv with posx := -5 } }).map
        (fun t => (t.drv.dstate, t.drv.posx)) = some (.dAttachSettle, -5) := by decide

/-- P3, ADVANCE 133: the engine's half completes the write, the driver's half issues the read. -/
theorem test_advance_engine_then_driver :
    (after .advance (at' 0#32)
      { writing .wStopBothHigh 0#32 with drv := { idle.drv with dstate := .dResetCmd } }).map
        (fun t => (t.eng.bstate, issued t, drive t)) =
      some (.bIdle, Issued.mk true .read 0x00#8 .dResetAck, dLZ) := by decide

/-- P3: `POSITION`. -/
theorem test_position :
    (after .position (at' 0#32) { idle with drv := { idle.drv with posx := -373, posy := 151 } }).map
      (fun t => t.result) = some (.pair (-373) 151) := by decide

/-- P5, lines 2 and 3. -/
theorem test_d_attach_settle :
    (after .dAttachSettle (at' 100#32) (driving .dAttachSettle 0x00#8)).map (fun t => t.drv.dstate) =
      some .dAttachSettle ∧
    (after .dAttachSettle (at' 101#32) (driving .dAttachSettle 0x00#8)).map issued =
      some (Issued.mk true .write 0xFF#8 .dResetCmd) := by decide

/-- The rows that issue a read, I8 to I20 (R165 to R177). -/
theorem test_driver_rows_that_read :
    (after .dResetCmd (at' 0#32) (driving .dResetCmd 0x00#8)).map issued = some (Issued.mk true .read 0x00#8 .dResetAck) ∧
    (after .dResetAck (at' 0#32) (driving .dResetAck 0xFA#8)).map issued = some (Issued.mk true .read 0x00#8 .dResetB1) ∧
    (after .dResetB1 (at' 0#32) (driving .dResetB1 0xAA#8)).map issued = some (Issued.mk true .read 0x00#8 .dResetB2) ∧
    (after .dRemoteCmd (at' 0#32) (driving .dRemoteCmd 0x00#8)).map issued =
      some (Issued.mk true .read 0x00#8 .dRemoteAck) ∧
    (after .dRateCmd (at' 0#32) (driving .dRateCmd 0x00#8)).map issued = some (Issued.mk true .read 0x00#8 .dRateCmdAck) ∧
    (after .dRateVal (at' 0#32) (driving .dRateVal 0x00#8)).map issued = some (Issued.mk true .read 0x00#8 .dRateValAck) ∧
    (after .dResCmd (at' 0#32) (driving .dResCmd 0x00#8)).map issued = some (Issued.mk true .read 0x00#8 .dResCmdAck) ∧
    (after .dResVal (at' 0#32) (driving .dResVal 0x00#8)).map issued = some (Issued.mk true .read 0x00#8 .dResValAck) := by
  decide

/-- The rows that issue a write, I11 to I19. -/
theorem test_driver_rows_that_write :
    (after .dResetB2 (at' 0#32) (driving .dResetB2 0x00#8)).map issued = some (Issued.mk true .write 0xF0#8 .dRemoteCmd) ∧
    (after .dRemoteAck (at' 0#32) (driving .dRemoteAck 0xFE#8)).map issued = some (Issued.mk true .write 0xF3#8 .dRateCmd) ∧
    (after .dRateCmdAck (at' 0#32) (driving .dRateCmdAck 0xFA#8)).map issued =
      some (Issued.mk true .write 0xC8#8 .dRateVal) ∧
    (after .dRateValAck (at' 0#32) (driving .dRateValAck 0xFA#8)).map issued =
      some (Issued.mk true .write 0xE8#8 .dResCmd) ∧
    (after .dResCmdAck (at' 0#32) (driving .dResCmdAck 0xFA#8)).map issued = some (Issued.mk true .write 0x03#8 .dResVal) := by
  decide

/-- I21. -/
theorem test_d_res_val_ack :
    (after .dResValAck (at' 2757#32) (driving .dResValAck 0xFA#8)).map
      (fun t => (t.eng.busy, t.drv.dstate, t.drv.dt)) = some (false, .dInitSettle, 2757#32) := by decide

/-- I22, I23. -/
theorem test_d_init_settle :
    (after .dInitSettle (at' 100#32) (driving .dInitSettle 0x00#8)).map (fun t => t.drv.dstate) =
      some .dInitSettle ∧
    (after .dInitSettle (at' 101#32) (driving .dInitSettle 0x00#8)).map issued =
      some (Issued.mk true .write 0xEB#8 .dPollCmd) := by decide

/-- L1, L2, and L8 for a pending write. -/
theorem test_d_poll_cmd_and_ack :
    (after .dPollCmd (at' 0#32) (driving .dPollCmd 0x00#8)).map issued = some (Issued.mk true .read 0x00#8 .dPollAck) ∧
    (after .dPollAck (at' 0#32) (driving .dPollAck 0xFA#8)).map (fun t => (issued t, t.drv.status)) =
      some (Issued.mk true .read 0x00#8 .dPollStatus, 0x00#8) ∧
    (after .dPollCmd (at' 0#32) { writing .wDevClk 0#32 with drv := { idle.drv with dstate := .dPollCmd } }).map
      (fun t => t.drv.dstate) = some .dPollCmd := by decide

/-- L3, L4. -/
theorem test_d_poll_status_and_x :
    (after .dPollStatus (at' 0#32) (driving .dPollStatus 0x10#8)).map (fun t => (issued t, t.drv.status)) =
      some (Issued.mk true .read 0x00#8 .dPollX, 0x10#8) ∧
    (after .dPollX (at' 0#32) (driving .dPollX 0x80#8)).map (fun t => (issued t, t.drv.rawx)) =
      some (Issued.mk true .read 0x00#8 .dPollY, 0x80#8) := by decide

/-- L5 with K11: overflow with sign, the deltas are still added. -/
theorem test_d_poll_y :
    (after .dPollY (at' 12753#32)
      { driving .dPollY 0x7F#8 with
        drv := { idle.drv with dstate := .dPollY, status := 0x50#8, rawx := 0x00#8, posx := -117, posy := 24 } }).map
        (fun t => (t.drv.dstate, t.drv.posx, t.drv.posy, t.drv.ovf, t.drv.dt)) =
      some (.dPollWait, -373, 151, true, 12753#32) := by decide

/-- L6, L7. -/
theorem test_d_poll_wait :
    after .dPollWait (at' 1000#32) (driving .dPollWait 0x00#8) =
      some { driving .dPollWait 0x00#8 with env := at' 1000#32 } ∧
    (after .dPollWait (at' 1001#32) (driving .dPollWait 0x00#8)).map issued =
      some (Issued.mk true .write 0xEB#8 .dPollCmd) := by decide

/-- R162: the row of the driver that is not attached. -/
theorem test_d_uninit_row : after .dUninit (at' 0#32) State.reset = some State.reset := by decide

/-- The seven bytes (R68): each at its place in the driver's sequence. -/
theorem test_command_bytes_in_the_sequence :
    (after .cmdReset (at' 101#32) (driving .dAttachSettle 0x00#8)).map issued =
      some (Issued.mk true .write 0xFF#8 .dResetCmd) ∧
    (after .cmdRemoteMode (at' 0#32) (driving .dResetB2 0x00#8)).map issued =
      some (Issued.mk true .write 0xF0#8 .dRemoteCmd) ∧
    (after .cmdSetRate (at' 0#32) (driving .dRemoteAck 0x00#8)).map issued = some (Issued.mk true .write 0xF3#8 .dRateCmd) ∧
    (after .argRate200 (at' 0#32) (driving .dRateCmdAck 0x00#8)).map issued =
      some (Issued.mk true .write 0xC8#8 .dRateVal) ∧
    (after .cmdSetResolution (at' 0#32) (driving .dRateValAck 0x00#8)).map issued =
      some (Issued.mk true .write 0xE8#8 .dResCmd) ∧
    (after .argResolution3 (at' 0#32) (driving .dResCmdAck 0x00#8)).map issued =
      some (Issued.mk true .write 0x03#8 .dResVal) ∧
    (after .cmdRequestData (at' 1001#32) (driving .dPollWait 0x00#8)).map issued =
      some (Issued.mk true .write 0xEB#8 .dPollCmd) := by decide

/-- A byte out of its place is no operation from outside while the driver is attached (U13). -/
theorem test_command_byte_out_of_place :
    refused .cmdReset (at' 0#32) (driving .dPollWait 0x00#8) = some .engineOwnedByDriver ∧
    (after .cmdReset (at' 0#32) idle).map issued = some (Issued.mk true .write 0xFF#8 .dUninit) := by decide

/-- P1: the write of 0x01 ends with `sh` empty, the parity 1 in `par`, the clock held low. -/
theorem test_frame_to_the_device :
    (after (.frameH2D 0x01#8 true) (at' 1000#32) idle).map
      (fun t => (t.eng.busy, cell t)) = some (false, Cell.mk .bIdle true 0x00#8 0#3 dLZ) := by decide +kernel

/-- X2: 0xFF has parity 0; another parity cell is refused. -/
theorem test_frame_parity :
    (after (.frameH2D 0xFF#8 false) (at' 0#32) idle).map (fun t => t.eng.par) = some false ∧
    refused (.frameH2D 0xFF#8 true) (at' 0#32) idle = some .frameParity := by decide +kernel

/-- P2: the read of 0xA5, whose parity cell is 0. -/
theorem test_frame_from_the_device :
    (after (.frameD2H false 0xA5#8 false true) (at' 5000#32) idle).map
      (fun t => (t.eng.bstate, t.eng.rx, t.result, drive t)) = some (.bIdle, 0xA5#8, .byte 0xA5#8, dLZ) := by decide +kernel

/-- H3: wrong start, parity and stop cells change nothing in the byte received. -/
theorem test_frame_cells_are_not_checked :
    (after (.frameD2H true 0x35#8 true false) (at' 0#32) idle).map (fun t => t.eng.rx) = some 0x35#8 := by
  decide +kernel

/-- The driver has requested the read of a status byte (R191); the clock is held low until the dispatch (R258). -/
def awaitingReport : State :=
  { driving .dPollStatus 0xFA#8 with eng := { idle.eng with busy := true, op := .read, rx := 0xFA#8 } }

/-- The position and the overflow flag after a report. -/
def moved (status x y : Byte) : Option (Int × Int × Bool) :=
  (after (.reportStatus status x y) (at' 0#32) awaitingReport).map fun t => (t.drv.posx, t.drv.posy, t.drv.ovf)

/-- K1, K8. -/
theorem test_report_one_sign_and_overflow :
    moved 0x10#8 0x80#8 0x05#8 = some (-128, 5, false) ∧ moved 0x40#8 0x05#8 0x05#8 = some (5, 5, true) := by
  decide +kernel

/-- K4, K6, K7 (deltas), K12. -/
theorem test_report_extremes :
    (moved 0x10#8 0x00#8 0x00#8).map (fun m => m.1) = some (-256) ∧ moved 0x30#8 0xFF#8 0xFF#8 = some (-1, -1, false) ∧
    moved 0x20#8 0x01#8 0x00#8 = some (1, -256, false) ∧ moved 0x0F#8 0x03#8 0x04#8 = some (3, 4, false) := by
  decide +kernel

/-- R163: a report that no read waits for moves nothing; one that is read ends in `D_POLL_WAIT`. -/
theorem test_report_awaited_or_not :
    after (.reportStatus 0x00#8 0x01#8 0x01#8) (at' 0#32) State.reset = some State.reset ∧
    after (.reportStatus 0x00#8 0x01#8 0x01#8) (at' 0#32) (driving .dPollY 0x00#8) = some (driving .dPollY 0x00#8) ∧
    (after (.reportStatus 0x10#8 0x80#8 0x05#8) (at' 0#32) awaitingReport).map
      (fun t => (t.drv.dstate, t.eng.busy, t.eng.rx, drive t)) = some (.dPollWait, false, 0x05#8, dLZ) := by
  decide +kernel

/-- R64: the reserved codes. -/
theorem test_reserved_codes_are_refused :
    refused (.engReserved 1#1) (at' 0#32) idle = some .reservedEngOp ∧
    refused .drvReserved (at' 0#32) idle = some .reservedDrvOp ∧
    refused .busStateReserved23 (at' 0#32) idle = some .reservedBusState ∧
    refused (.busStateReserved24to31 4#3) (at' 0#32) idle = some .reservedBusState ∧
    refused .drvStateReserved23 (at' 0#32) idle = some .reservedDrvState ∧
    refused (.drvStateReserved24to31 4#3) (at' 0#32) idle = some .reservedDrvState := by decide

/-- E1 to E4, E8, E9. -/
theorem test_elapsed :
    elapsed 300#32 1000#32 1300#32 = false ∧ elapsed 300#32 1000#32 1301#32 = true ∧
    elapsed 31#32 0xFFFFFFF0#32 0x10#32 = true ∧ elapsed 32#32 0xFFFFFFF0#32 0x10#32 = false ∧
    elapsed 5#32 0xFFFFFFFF#32 0x4#32 = false ∧ elapsed 5#32 0xFFFFFFFF#32 0x5#32 = true := by decide

/-- Section 2.2. -/
theorem test_parity_of_a_byte :
    parityOfByte 0x00#8 = false ∧ parityOfByte 0x01#8 = true ∧ parityOfByte 0xC8#8 = true ∧
    parityOfByte 0xFE#8 = true ∧ parityOfByte 0xFF#8 = false := by decide

/-- A word placed on an engine after reset is the next invocation; a transition row finds its tag selected. -/
theorem test_withFetchWord :
    nextOf (step (State.reset.withFetchWord 8 0x04)) = nextOf (exec .take State.reset) ∧
    (State.reset.withFetchWord 8 0x0B).eng.bstate = .wStopClkLow := by decide

-- Witnesses: for every statement with hypotheses, a state and operands that meet them, each clause at its boundary.

theorem witness_DecodedCodeIsTheEncodersCode :
    decode (plainWord .frameD2H 0x7FF#16) = .ok (.frameD2H true 0xFF#8 true true) ∧
    decode (plainWord .frameH2D 0x7FE#16) = .ok (.frameH2D 0xFF#8 true) ∧
    decode (plainWord .report 0xFF#16) = .ok (.reportStatus 0xFF#8 0x00#8 0x00#8) ∧
    decode (plainWord .engOp 7#16) = .ok (.engReserved 1#1) ∧ decode (plainWord .drvOp 3#16) = .ok .drvReserved ∧
    decode (plainWord .busState 31#16) = .ok (.busStateReserved24to31 7#3) ∧
    decode (plainWord .drvState 31#16) = .ok (.drvStateReserved24to31 7#3) ∧
    decode (plainWord .cmdByte 0xFF#16) = .ok .cmdReset := by decide

theorem witness_StateCodesSelectTheirTransitions :
    22 < 23 ∧ BusState.ofCode 23 = none ∧ DrvState.ofCode 23 = none ∧ BusState.ofCode 22 = some .rStopHigh ∧
    DrvState.ofCode 22 = some .dPollWait := by decide

theorem witness_StepRunsTheDecodedInstruction :
    (calling .step bothL idle).calls = [{ word := plainWord .engOp 5#16, sample := bothL }] ∧
    decode (plainWord .engOp 5#16) = .ok .step := by decide

theorem witness_NoInvocationNoChange : State.reset.calls = [] ∧ (driving .dPollWait 0x00#8).calls = [] := by decide

theorem witness_StepRefusesAWordThatIsNoInstruction :
    ({ idle with calls := [{ word := plainWord .engOp 8#16, sample := bothL }] } : State).calls =
      [{ word := plainWord .engOp 8#16, sample := bothL }] ∧
    decode (plainWord .engOp 8#16) = .error .codeTooWide := by decide

/-- The invariant says nothing of the interface. -/
theorem inv_of_interface {s : State} (h : Inv s) (calls : List Call) (env : Sample) :
    Inv { s with calls := calls, env := env } where
  engine := ⟨h.engine.unbound, h.engine.pending, h.engine.writing, h.engine.reading⟩
  lines := ⟨h.lines.rising, h.lines.bound, h.lines.clock, h.lines.data⟩
  driver := ⟨h.driver.attached, h.driver.idle, h.driver.writeAwaited, h.driver.readAwaited, h.driver.attachReleased,
    h.driver.firstReleased, h.driver.heldAfter, h.driver.heldUntilDispatch⟩

/-- A driver in `D_POLL_WAIT` over its idle engine meets the invariant. -/
theorem inv_waiting : Inv (driving .dPollWait 0x00#8) where
  engine := ⟨by decide, by decide, by decide, by decide⟩
  lines := ⟨by decide, by decide, fun _ => Option.some_ne_none _, fun _ => rfl⟩
  driver := ⟨by decide, by decide, by decide, by decide, by decide, by decide, by decide, by decide⟩

theorem witness_EveryStepKeepsTheInvariant :
    ∃ s s' : State, Inv s ∧ step s = .next s' ∧ s'.drv.dstate = .dPollCmd :=
  ⟨_, _, inv_of_interface inv_waiting (calling .advance (at' 1001#32) idle).calls idle.env, rfl, rfl⟩

/-- So do a driver whose first command is queued, the clock still released, and one whose read is queued, the clock
held low. -/
theorem inv_queued :
    Inv { writingBit .bIdle 0xFF#8 0#3 false with drv := { idle.drv with dstate := .dResetCmd } } ∧
    Inv awaitingReport :=
  ⟨⟨⟨by decide, by decide, by decide, by decide⟩, ⟨by decide, by decide, fun _ => Option.some_ne_none _, fun _ => rfl⟩,
      ⟨by decide, by decide, by decide, by decide, by decide, by decide, by decide, by decide⟩⟩,
    ⟨⟨by decide, by decide, by decide, by decide⟩, ⟨by decide, by decide, fun _ => Option.some_ne_none _, fun _ => rfl⟩,
      ⟨by decide, by decide, by decide, by decide, by decide, by decide, by decide, by decide⟩⟩⟩

theorem witness_AdvanceNeverRequestsWhileBusy : ∃ s : State, Inv s ∧ s.drv.dstate = .dPollWait :=
  ⟨_, inv_waiting, rfl⟩

theorem witness_ElapsedIsStrictModuloTheCounter :
    elapsed 0#32 5#32 6#32 = true ∧ elapsed 0#32 5#32 5#32 = false ∧ elapsed 300#32 1000#32 999#32 = true := by decide

theorem witness_LevelAfterReleaseAndAssertLow :
    (3 : LineId) ≠ 2 ∧ levelOf (release (some 2) idle).modes (some 2) true = .low ∧
    levelOf (release (some 2) idle).modes (some 2) false = .high ∧
    levelOf (assertLow (some 2) idle).modes (some 2) false = .low ∧
    clockLow { idle with eng := { idle.eng with dataLine := some 2 }, env := datL } ∧ ¬ clockLow { idle with env := datL } := by
  decide

theorem witness_DrivenBitIsTheSampledBit :
    idle.eng.dataLine = some 3 ∧ bitOfLevel (levelOf (driveData true idle).modes (some 3) false) = true ∧
    bitOfLevel (levelOf (driveData true idle).modes (some 3) true) = false := by decide

theorem witness_AssignRestartsTheEngine :
    (writing .wDevClk 0#32).drv.dstate = .dUninit ∧ lineValid idle.platform (some 2) (some 3) = true ∧
    lineValid idle.platform (some 4) (some 4) = false ∧ lineValid idle.platform none (some 3) = false ∧
    lineValid (.only [(4, 4)]) (some 4) (some 4) = true ∧ lineValid (.only [(2, 3)]) (some 3) (some 2) = false := by
  decide

theorem witness_RequestWriteLatchesAndQueues :
    idle.drv.dstate = .dUninit ∧ idle.eng.bstate ≠ .bUninit ∧ idle.eng.busy = false := by decide

/-- The same state: a request needs nothing else of it. -/
theorem witness_RequestReadQueues :
    idle.drv.dstate = .dUninit ∧ idle.eng.bstate ≠ .bUninit ∧ idle.eng.busy = false := by decide

theorem witness_RequestWhileBusyIsRefused :
    (writing .wBitFall 0#32).drv.dstate = .dUninit ∧ (writing .wBitFall 0#32).eng.bstate ≠ .bUninit ∧
    (writing .wBitFall 0#32).eng.busy = true := by decide

theorem witness_UnboundEngineDoesNothing :
    EngineInv State.reset ∧ State.reset.drv.dstate = .dUninit ∧ State.reset.eng.bstate = .bUninit :=
  ⟨⟨by decide, by decide, by decide, by decide⟩, rfl, rfl⟩

theorem witness_StepOperationEvaluatesTheSelectedRule :
    (writing .wStopBothHigh 0#32).drv.dstate = .dUninit ∧
    exec BusState.wStopBothHigh.transition (writing .wStopBothHigh 0#32) = exec .step (writing .wStopBothHigh 0#32) :=
  ⟨rfl, rfl⟩

theorem witness_AttachedDriverOwnsTheEngine :
    (driving .dPollWait 0x00#8).drv.dstate ≠ .dUninit ∧ (driving .dAttachSettle 0x00#8).drv.dstate ≠ .dUninit := by
  decide

theorem witness_UnselectedTransitionChangesNothing :
    idle.eng.bstate ≠ .wSettle ∧ idle.drv.dstate ≠ .dPollY := by decide

theorem witness_UninitTransitionDoesNothing : State.reset.eng.bstate = .bUninit := rfl

theorem witness_IdleDispatchesTheQueuedRequest :
    ((writing .bIdle 0#32).eng.bstate = .bIdle ∧ (writing .bIdle 0#32).eng.busy = true ∧
      (writing .bIdle 0#32).eng.op = .write) ∧
    ((reading .bIdle 0#32).eng.bstate = .bIdle ∧ (reading .bIdle 0#32).eng.busy = true ∧
      (reading .bIdle 0#32).eng.op = .read) ∧
    (idle.eng.bstate = .bIdle ∧ idle.eng.busy = false) := by decide

/-- A state at time `now`. -/
def sampled (e : Sample) (s : State) : State := { s with env := e }

/-- Each window has ended at its first elapsed microsecond and not one before. -/
theorem witness_TimedWindowsOfAWrite :
    (300 < ((sampled (at' 1301#32) (writing .wSettle 1000#32)).env.now - (writing .wSettle 1000#32).eng.t).toNat ∧
      ¬ 300 < (1300#32 - (writing .wSettle 1000#32).eng.t).toNat) ∧
    (writing .wInhibit 1000#32).eng.bstate = .wInhibit ∧ 300 < (1301#32 - (writing .wInhibit 1000#32).eng.t).toNat ∧
    (writing .wStart 1000#32).eng.bstate = .wStart ∧ 10 < (1011#32 - (writing .wStart 1000#32).eng.t).toNat ∧
    ¬ 10 < (1010#32 - (writing .wStart 1000#32).eng.t).toNat ∧
    (writing .wStopDelay 1000#32).eng.bstate = .wStopDelay ∧
    50 < (1051#32 - (writing .wStopDelay 1000#32).eng.t).toNat ∧
    ¬ 50 < (1050#32 - (writing .wStopDelay 1000#32).eng.t).toNat := by decide

theorem witness_DeviceTakesOverClocking :
    (writing .wDevClk 0#32).eng.bstate = .wDevClk ∧ clockLow (sampled clkL (writing .wDevClk 0#32)) ∧
    ¬ clockLow (sampled datL (writing .wDevClk 0#32)) := by decide

theorem witness_ClockWaitsOfAWrite :
    ((writing .wBitRise 0#32).eng.bstate = .wBitRise ∧ clockHigh (sampled datL (writing .wBitRise 0#32))) ∧
    ((writing .wParRise 0#32).eng.bstate = .wParRise ∧ ¬ clockHigh (sampled clkL (writing .wParRise 0#32))) ∧
    ((writing .wStopClkLow 0#32).eng.bstate = .wStopClkLow ∧ clockLow (sampled bothL (writing .wStopClkLow 0#32))) := by
  decide

/-- `cnt` at 7, at 6, and at 0; the clock low and high. -/
theorem witness_DataBitOfAWriteCompletes :
    (writingBit .wBitFall 0x01#8 7#3 false).eng.bstate = .wBitFall ∧
    ¬ clockLow (sampled datL (writingBit .wBitFall 0x01#8 7#3 false)) ∧
    (clockLow (sampled clkL (writingBit .wBitFall 0x01#8 7#3 false)) ∧
      (writingBit .wBitFall 0x01#8 7#3 false).eng.cnt = 7#3) ∧
    (clockLow (sampled clkL (writingBit .wBitFall 0x02#8 6#3 false)) ∧
      (writingBit .wBitFall 0x02#8 6#3 false).eng.cnt ≠ 7#3) ∧
    (writingBit .wBitFall 0x80#8 0#3 false).eng.cnt ≠ 7#3 := by decide

theorem witness_ParityCellOfAWriteEnds :
    (writing .wParFall 0#32).eng.bstate = .wParFall ∧ clockLow (sampled clkL (writing .wParFall 0#32)) ∧
    ¬ clockLow (writing .wParFall 0#32) := by decide

theorem witness_BothLinesHighCompleteAWrite :
    (writing .wStopBothHigh 0#32).eng.bstate = .wStopBothHigh ∧
    (clockHigh (writing .wStopBothHigh 0#32) ∧ dataHigh (writing .wStopBothHigh 0#32)) ∧
    ¬ dataHigh (sampled datL (writing .wStopBothHigh 0#32)) ∧
    ¬ clockHigh (sampled clkL (writing .wStopBothHigh 0#32)) := by decide

theorem witness_TimedWindowsOfARead :
    (reading .rFreeDelay 5000#32).eng.bstate = .rFreeDelay ∧
    50 < (5051#32 - (reading .rFreeDelay 5000#32).eng.t).toNat ∧
    ¬ 50 < (5050#32 - (reading .rFreeDelay 5000#32).eng.t).toNat ∧
    (reading .rStartSettle 0xFFFFFFFF#32).eng.bstate = .rStartSettle ∧
    5 < (0x5#32 - (reading .rStartSettle 0xFFFFFFFF#32).eng.t).toNat ∧
    ¬ 5 < (0x4#32 - (reading .rStartSettle 0xFFFFFFFF#32).eng.t).toNat := by decide

theorem witness_StartCellOfARead :
    ((reading .rStartLow 0#32).eng.bstate = .rStartLow ∧ clockLow (sampled clkL (reading .rStartLow 0#32)) ∧
      ¬ clockLow (reading .rStartLow 0#32)) ∧
    ((reading .rStartRise 0#32).eng.bstate = .rStartRise ∧ clockHigh (reading .rStartRise 0#32) ∧
      ¬ clockHigh (sampled clkL (reading .rStartRise 0#32))) := by decide

/-- The first bit and the last, with the data line high and low. -/
theorem witness_DataBitOfAReadIsSampledOnce :
    (readingBit .rBitLow 0#3 0x00#8).eng.bstate = .rBitLow ∧ ¬ clockLow (readingBit .rBitLow 0#3 0x00#8) ∧
    (clockLow (sampled clkL (readingBit .rBitLow 0#3 0x00#8)) ∧
      dataHigh (sampled clkL (readingBit .rBitLow 0#3 0x00#8))) ∧
    (clockLow (sampled bothL (readingBit .rBitLow 7#3 0xFF#8)) ∧
      ¬ dataHigh (sampled bothL (readingBit .rBitLow 7#3 0xFF#8))) ∧ 0 < 8 ∧ 7 < 8 := by decide

theorem witness_BitOfAReadIsCounted :
    (readingBit .rBitHigh 7#3 0x00#8).eng.bstate = .rBitHigh ∧ clockHigh (readingBit .rBitHigh 7#3 0x00#8) ∧
    (readingBit .rBitHigh 7#3 0x00#8).eng.cnt = 7#3 ∧ (readingBit .rBitHigh 6#3 0x00#8).eng.cnt ≠ 7#3 ∧
    ¬ clockHigh (sampled clkL (readingBit .rBitHigh 7#3 0x00#8)) := by decide

theorem witness_ParityAndStopCellsAreNotChecked :
    ((reading .rParLow 0#32).eng.bstate = .rParLow ∧ clockLow (sampled bothL (reading .rParLow 0#32))) ∧
    ((reading .rParHigh 0#32).eng.bstate = .rParHigh ∧ clockHigh (sampled datL (reading .rParHigh 0#32))) ∧
    ((reading .rStopLow 0#32).eng.bstate = .rStopLow ∧ clockLow (sampled bothL (reading .rStopLow 0#32))) := by decide

theorem witness_FinalClockHighCompletesARead :
    (reading .rStopHigh 0#32).eng.bstate = .rStopHigh ∧ clockHigh (sampled datL (reading .rStopHigh 0#32)) ∧
    ¬ clockHigh (sampled clkL (reading .rStopHigh 0#32)) := by decide

theorem witness_AttachRestartsTheSequence :
    lineValid (driving .dPollY 0x00#8).platform (some 2) (some 3) = true ∧
    lineValid (driving .dPollY 0x00#8).platform (some 2) none = false := by decide

/-- At exactly the interval: 1000 is not more than 1000. -/
theorem witness_IdleAdvanceChangesNothing :
    ∃ s : State, Inv s ∧ s.drv.dstate = .dPollWait ∧ (s.env.now - s.drv.dt).toNat = s.drv.pollInterval.toNat :=
  ⟨_, inv_of_interface inv_waiting [] (at' 1000#32), rfl, by decide⟩

theorem witness_UnattachedDriverDoesNothing : idle.drv.dstate = .dUninit := rfl

/-- The driver in state `q` over a read that is still pending. -/
def drivingBusy (q : DrvState) : State :=
  { reading .rStartLow 0#32 with drv := { idle.drv with dstate := q } }

theorem witness_DriverIssuesTheNextRead :
    ∀ q ∈ ([.dResetCmd, .dResetAck, .dResetB1, .dRemoteCmd, .dRateCmd, .dRateVal, .dResCmd, .dResVal, .dPollCmd,
        .dPollAck] : List DrvState),
      (driving q 0x00#8).drv.dstate = q ∧ (driving q 0x00#8).eng.busy = false ∧
      (driving q 0x00#8).eng.bstate ≠ .bUninit ∧ (drivingBusy q).drv.dstate = q ∧ (drivingBusy q).eng.busy = true := by
  decide

theorem witness_DriverIssuesTheNextWrite :
    ∀ q ∈ ([.dResetB2, .dRemoteAck, .dRateCmdAck, .dRateValAck, .dResCmdAck] : List DrvState),
      (driving q 0x00#8).drv.dstate = q ∧ (driving q 0x00#8).eng.busy = false ∧
      (driving q 0x00#8).eng.bstate ≠ .bUninit ∧ (drivingBusy q).drv.dstate = q ∧ (drivingBusy q).eng.busy = true := by
  decide

theorem witness_TimedWaitsOfTheDriver :
    ∀ q ∈ ([.dAttachSettle, .dInitSettle, .dPollWait] : List DrvState),
      (driving q 0x00#8).drv.dstate = q ∧ (driving q 0x00#8).eng.busy = false ∧
      (driving q 0x00#8).eng.bstate ≠ .bUninit ∧ 100 < (101#32 - (driving q 0x00#8).drv.dt).toNat ∧
      ¬ 100 < (100#32 - (driving q 0x00#8).drv.dt).toNat ∧
      (driving q 0x00#8).drv.pollInterval.toNat < (1001#32 - (driving q 0x00#8).drv.dt).toNat ∧
      ¬ (driving q 0x00#8).drv.pollInterval.toNat < (1000#32 - (driving q 0x00#8).drv.dt).toNat := by decide

theorem witness_LastAcknowledgementStartsTheSettle :
    ((driving .dResValAck 0xFA#8).drv.dstate = .dResValAck ∧ (driving .dResValAck 0xFA#8).eng.busy = false) ∧
    ((drivingBusy .dResValAck).drv.dstate = .dResValAck ∧ (drivingBusy .dResValAck).eng.busy = true) := by decide

theorem witness_StatusAndXBytesAreTaken :
    ∀ q ∈ ([.dPollStatus, .dPollX] : List DrvState),
      (driving q 0x80#8).eng.bstate ≠ .bUninit ∧ (driving q 0x80#8).drv.dstate = q ∧
      (driving q 0x80#8).eng.busy = false ∧ (drivingBusy q).eng.bstate ≠ .bUninit ∧ (drivingBusy q).drv.dstate = q ∧
      (drivingBusy q).eng.busy = true := by decide

theorem witness_YByteCompletesTheSample :
    ((driving .dPollY 0xFF#8).drv.dstate = .dPollY ∧ (driving .dPollY 0xFF#8).eng.busy = false) ∧
    ((drivingBusy .dPollY).drv.dstate = .dPollY ∧ (drivingBusy .dPollY).eng.busy = true) := by decide

/-- The read of the status byte, waiting for its start bit in state `q`. -/
def awaitingStart (q : BusState) : State :=
  { reading q 0xFFFFFFFF#32 with drv := { idle.drv with dstate := .dPollStatus } }

/-- A queued read and a read at either of the two waits before its start bit; past the start bit, in another state of the
driver, and with no read pending the report is not awaited. -/
theorem witness_ReportDecodesNineBitDeltas :
    (awaitingReport.drv.dstate = .dPollStatus ∧ awaitingReport.eng.clockLine = some 2 ∧
      awaitingReport.eng.dataLine = some 3 ∧ (2 : LineId) ≠ 3 ∧ awaitingReport.eng.busy = true ∧
      awaitingReport.eng.op = .read ∧ awaitingReport.eng.bstate = .bIdle) ∧
    (∀ q ∈ ([.rFreeDelay, .rStartLow] : List BusState),
      (awaitingStart q).drv.dstate = .dPollStatus ∧ (awaitingStart q).eng.clockLine = some 2 ∧
      (awaitingStart q).eng.dataLine = some 3 ∧ (awaitingStart q).eng.busy = true ∧
      (awaitingStart q).eng.op = .read ∧ (awaitingStart q).eng.bstate = q ∧
      modeOf (awaitingStart q).modes 2 = some .released ∧ modeOf (awaitingStart q).modes 3 = some .released) ∧
    (awaitingStart .rStartSettle).eng.bstate ∉ ([.bIdle, .rFreeDelay, .rStartLow] : List BusState) ∧
    (driving .dPollStatus 0x00#8).eng.busy = false ∧ (driving .dPollX 0x00#8).drv.dstate ≠ .dPollStatus ∧
    (reportPhases 0x10#8 0x80#8 0x05#8).length = 75 := by decide

theorem witness_CommandByteAtItsPlaceIsWrittenByTheDriver :
    ∀ q ∈ ([.dAttachSettle, .dResetB2, .dRemoteAck, .dRateCmdAck, .dRateValAck, .dResCmdAck, .dInitSettle,
        .dPollWait] : List DrvState), (driving q 0x00#8).drv.dstate = q := by decide

theorem witness_CommandByteOutOfTheSequenceIsItsRequest :
    (idle.drv.dstate = .dUninit ∧ idle.eng.bstate ≠ .bUninit ∧ idle.eng.busy = false) ∧
    ((writing .wSettle 0#32).drv.dstate = .dUninit ∧ (writing .wSettle 0#32).eng.bstate ≠ .bUninit ∧
      (writing .wSettle 0#32).eng.busy = true) ∧
    (State.reset.drv.dstate = .dUninit ∧ State.reset.eng.bstate = .bUninit) ∧
    ((driving .dPollY 0x00#8).drv.dstate ≠ .dUninit ∧
      (driving .dPollY 0x00#8).drv.dstate ∉ ([.dInitSettle, .dPollWait] : List DrvState)) := by decide

/-- The driver has requested the write of 0xEB. -/
def queuedWrite : State :=
  { writingBit .bIdle 0xEB#8 0#3 false with drv := { idle.drv with dstate := .dPollCmd } }

theorem witness_FrameToTheDeviceCompletes :
    (idle.eng.bstate = .bIdle ∧ idle.eng.clockLine = some 2 ∧ idle.eng.dataLine = some 3 ∧ (2 : LineId) ≠ 3 ∧
      idle.drv.dstate = .dUninit ∧ idle.eng.busy = false) ∧
    (queuedWrite.eng.bstate = .bIdle ∧ queuedWrite.eng.clockLine = some 2 ∧ queuedWrite.eng.dataLine = some 3 ∧
      queuedWrite.eng.busy = true ∧ queuedWrite.eng.op = .write ∧ queuedWrite.eng.sh = 0xEB#8) := by decide

/-- The driver has requested a read. -/
def queuedRead : State :=
  { reading .bIdle 0#32 with drv := { idle.drv with dstate := .dPollAck } }

/-- Alone and idle, a queued read, and a read at either of the two waits before its start bit. -/
theorem witness_FrameFromTheDeviceIsReceived :
    (idle.eng.bstate = .bIdle ∧ idle.eng.clockLine = some 2 ∧ idle.eng.dataLine = some 3 ∧ (2 : LineId) ≠ 3 ∧
      idle.drv.dstate = .dUninit ∧ idle.eng.busy = false) ∧
    (queuedRead.eng.bstate = .bIdle ∧ queuedRead.eng.clockLine = some 2 ∧ queuedRead.eng.dataLine = some 3 ∧
      queuedRead.eng.busy = true ∧ queuedRead.eng.op = .read) ∧
    ∀ q ∈ ([.rFreeDelay, .rStartLow] : List BusState),
      (reading q 0xFFFFFFFF#32).eng.bstate = q ∧ (reading q 0xFFFFFFFF#32).eng.busy = true ∧
      (reading q 0xFFFFFFFF#32).eng.op = .read ∧ modeOf (reading q 0xFFFFFFFF#32).modes 2 = some .released ∧
      modeOf (reading q 0xFFFFFFFF#32).modes 3 = some .released := by decide

theorem witness_FrameThatCannotBeginIsRefused :
    (driving .dPollWait 0x00#8).drv.dstate ≠ .dUninit ∧
    ¬ ((driving .dPollWait 0x00#8).eng.bstate = .bIdle ∧ (driving .dPollWait 0x00#8).eng.busy = true) ∧
    ((reading .rStartSettle 0#32).drv.dstate = .dUninit ∧ (reading .rStartSettle 0#32).eng.busy = true ∧
      (reading .rStartSettle 0#32).eng.bstate ∉ ([.bUninit, .bIdle, .rFreeDelay, .rStartLow] : List BusState)) ∧
    (State.reset.drv.dstate = .dUninit ∧ State.reset.eng.bstate = .bUninit ∧ State.reset.eng.busy = false) := by decide

theorem witness_OnlyTheDecodeMovesThePosition :
    (∃ t, exec .dPollY (driving .dPollY 0x05#8) = .next t ∧ t.drv.posy ≠ (driving .dPollY 0x05#8).drv.posy) ∧
    (∃ t, exec .advance (driving .dPollY 0x05#8) = .next t ∧ t.drv.posy ≠ (driving .dPollY 0x05#8).drv.posy) ∧
    (nextOf (exec (.reportStatus 0x40#8 0x00#8 0x00#8) awaitingReport)).map (fun t => t.drv.ovf) = some true ∧
    awaitingReport.drv.ovf = false :=
  ⟨⟨_, rfl, by decide⟩, ⟨_, rfl, by decide⟩, by decide +kernel, rfl⟩

theorem witness_OtherLinesAreNeverTouched :
    (∃ t, exec .wStopBothHigh (writing .wStopBothHigh 0#32) = .next t ∧ t.modes ≠ idle.modes) ∧
    some (4 : LineId) ≠ idle.eng.clockLine ∧ some (4 : LineId) ≠ idle.eng.dataLine ∧
    (∃ t, exec (.assign (some 5) (some 6)) idle = .next t) ∧ some (4 : LineId) ≠ some 5 ∧ some (4 : LineId) ≠ some 6 ∧
    (idle.eng.bstate = .bIdle ∧ ∃ t, exec .reqr idle = .next t ∧ t.eng.bstate = .bIdle) :=
  ⟨⟨_, rfl, by decide⟩, by decide, by decide, ⟨_, rfl⟩, by decide, by decide, rfl, ⟨_, rfl, rfl⟩⟩

theorem witness_ParametersAreNeverWritten :
    (∃ t, exec .advance (driving .dPollY 0x05#8) = .next t) ∧ (∃ t, exec (.assign (some 5) (some 6)) idle = .next t) :=
  ⟨⟨_, rfl⟩, ⟨_, rfl⟩⟩

end Sys2Proof.Tests
end

/-! PROOFS. The step on a call whose word decodes (R9, R46, R53), and the pairs the default `line_valid` binds (R5). -/

namespace Sys2Proof.Machine

/-- The next call's word decodes: the step begins that call and runs its instruction. -/
theorem step_of_decode_ok {s : State} {c : Call} {rest : List Call} {i : Instr}
    (hcalls : s.calls = c :: rest) (hword : decode c.word = .ok i) : step s = exec i (beginCall c rest s) := by
  unfold step
  rw [hcalls]
  dsimp only
  rw [hword]

/-- `NONE` is bound under no rule, in neither place (R101). -/
@[simp] theorem lineValid_none_left (p : LineRule) (d : LineRef) : lineValid p none d = false := rfl

@[simp] theorem lineValid_none_right (p : LineRule) (c : LineRef) : lineValid p c none = false := by
  cases c <;> rfl

/-- Settles O6: the state `exec` runs on is `beginCall c rest s`, whose three written fields the statement spells out. -/
theorem stepRunsTheDecodedInstruction : Obligations.StepRunsTheDecodedInstruction := by
  intro s c rest i hcalls hword
  exact step_of_decode_ok hcalls hword

/-- Settles O16, by cases on which of the two references is `NONE`. -/
theorem defaultLineValid : Obligations.DefaultLineValid := by
  intro c d
  cases c with
  | none => simp
  | some x =>
    cases d with
    | none => simp
    | some y => simp [lineValid_standard]

end Sys2Proof.Machine

/-! PROOFS. The tables of the two state tags (R12, R23) and the values after power-on (R33). -/

namespace Sys2Proof.Machine

/-- The codes above 22 are reserved in `bstate` (R12, R64). -/
theorem busState_ofCode_of_lt : ∀ {n : Nat}, 22 < n → BusState.ofCode n = none
  | _ + 23, _ => rfl

/-- The codes above 22 are reserved in `dstate` (R23, R64). -/
theorem drvState_ofCode_of_lt : ∀ {n : Nat}, 22 < n → DrvState.ofCode n = none
  | _ + 23, _ => rfl

/-- The code of a state of the engine names that state and decodes to its transition. -/
theorem busState_code_names (q : BusState) :
    BusState.ofCode q.code.toNat = some q ∧ decode (plainWord .busState (q.code.setWidth 16)) = .ok q.transition := by
  cases q <;> exact ⟨rfl, rfl⟩

/-- The code of a state of the driver names that state and decodes to its transition. -/
theorem drvState_code_names (q : DrvState) :
    DrvState.ofCode q.code.toNat = some q ∧ decode (plainWord .drvState (q.code.setWidth 16)) = .ok q.transition := by
  cases q <;> exact ⟨rfl, rfl⟩

/-- Settles O4: the rows written out are evaluated, each state is read back from its own code, and a code above 22 is in
neither table. -/
theorem stateCodesSelectTheirTransitions : Obligations.StateCodesSelectTheirTransitions :=
  ⟨by decide, by decide, busState_code_names, drvState_code_names,
    fun _ h => ⟨busState_ofCode_of_lt h, drvState_ofCode_of_lt h⟩, rfl, rfl, rfl, rfl⟩

/-- Settles O9. -/
theorem powerOnValues : Obligations.PowerOnValues :=
  ⟨rfl, rfl, rfl⟩

/-- R30 says nothing of a driver that is not attached. -/
theorem driverInv_of_unattached {s : State} (h : s.drv.dstate = .dUninit) : DriverInv s := by
  constructor <;> simp [h, awaitsTime, awaitsWrite, awaitsRead]

/-- An engine at its power-on values, no line bound, keeps the invariants of the engine and of the lines. -/
theorem engineInv_of_powerOn {s : State} (h : s.eng = Engine.powerOn) : EngineInv s := by
  constructor <;> simp [h, Engine.powerOn, inWrite, inRead]

theorem linesInv_of_powerOn {s : State} (h : s.eng = Engine.powerOn) (hr : modesRising s.modes) : LinesInv s := by
  constructor <;> simp [h, hr, Engine.powerOn]

/-- Settles O10: after power-on no line is bound and no driver attached. -/
theorem powerOnStateIsInvariant : Obligations.PowerOnStateIsInvariant :=
  ⟨engineInv_of_powerOn rfl, linesInv_of_powerOn rfl List.Pairwise.nil, driverInv_of_unattached rfl⟩

end Sys2Proof.Machine

/-! PROOFS. What one evaluation of the engine's rule can do (R108 to R111, R120 to R149): wait, dispatch, go on within an
operation, or complete it; and to the lines: nothing, or one write to one of the two bound. -/

namespace Sys2Proof.Machine

/-- What no rule of the engine writes: the two lines bound and the kind of the operation (R14, R20). -/
def binding (e : Engine) : LineRef × LineRef × OpKind := (e.clockLine, e.dataLine, e.op)

theorem binding_eq_iff {e e' : Engine} :
    binding e' = binding e ↔ e'.clockLine = e.clockLine ∧ e'.dataLine = e.dataLine ∧ e'.op = e.op := by
  simp [binding]

/-- What a rule within an operation does to the lines: at most one of them is written, to the mode the next state fixes,
and a line not written has a mode that fits the next state if it fitted the last. -/
inductive LineMove (s t : State) : Prop
  | neither (modes : t.modes = s.modes) (clock : ∀ m, clockModeFits s.eng m → clockModeFits t.eng m)
      (data : ∀ m, dataModeFits s.eng m → dataModeFits t.eng m)
  | clock (m : DriveMode) (modes : t.modes = setModeAt s.modes s.eng.clockLine m)
      (clock : clockModeFits t.eng (some m)) (data : ∀ m, dataModeFits s.eng m → dataModeFits t.eng m)
  | data (m : DriveMode) (modes : t.modes = setModeAt s.modes s.eng.dataLine m)
      (clock : ∀ m, clockModeFits s.eng m → clockModeFits t.eng m) (data : dataModeFits t.eng (some m))

/-- The waits of an operation of the kind (R12). -/
def inOperation (k : OpKind) (q : BusState) : Bool :=
  match k with
  | .write => inWrite q
  | .read => inRead q

/-- A wait of an operation is neither `B_UNINIT` nor `B_IDLE`, and of one kind. -/
theorem inOperation_only {k : OpKind} {q : BusState} (h : inOperation k q = true) :
    q ≠ .bUninit ∧ q ≠ .bIdle ∧ (inWrite q = true → k = .write) ∧ (inRead q = true → k = .read) := by
  cases k <;> cases q <;> simp_all [inOperation, inWrite, inRead]

/-- What one evaluation of the engine's rule does. -/
inductive EngineMove (s t : State) : Prop
  /-- No binding, nothing queued, or a guard that is false. -/
  | waits (nothingQueued : s.eng.bstate = .bIdle → s.eng.busy = false) (same : t = s)
  /-- A queued request leaves `B_IDLE` with both lines released (R109). -/
  | dispatches (idle : s.eng.bstate = .bIdle) (queued : s.eng.busy = true)
      (first : t.eng.bstate = .wSettle ∧ s.eng.op = .write ∨ t.eng.bstate = .rFreeDelay ∧ s.eng.op = .read)
      (busy : t.eng.busy = true) (kept : binding t.eng = binding s.eng)
      (modes : t.modes = setModeAt (setModeAt s.modes s.eng.clockLine .released) s.eng.dataLine .released)
  /-- From one wait of an operation to the next of the same operation. -/
  | proceeds (k : OpKind) (source : inOperation k s.eng.bstate = true) (target : inOperation k t.eng.bstate = true)
      (busy : t.eng.busy = s.eng.busy) (kept : binding t.eng = binding s.eng) (lines : LineMove s t)
  /-- The last wait of an operation, its data line released (R130, R149). -/
  | completes (last : s.eng.bstate = .wStopBothHigh ∨ s.eng.bstate = .rStopHigh) (done : t = completeOperation s)

/-- A rule of a state other than `B_IDLE` whose guard is false waits (R111). -/
theorem EngineMove.of_guard {s u : State} {g : Prop} [Decidable g] (hq : s.eng.bstate ≠ .bIdle) (h : EngineMove s u) :
    EngineMove s (if g then u else s) := by
  split_ifs
  · exact h
  · exact .waits (fun e => absurd e hq) rfl

theorem ruleBIdle_move {s : State} (hq : s.eng.bstate = .bIdle) : EngineMove s (ruleBIdle s) := by
  unfold ruleBIdle
  split_ifs with hb
  · cases ho : s.eng.op with
    | write => exact .dispatches hq hb (.inl ⟨rfl, ho⟩) hb rfl rfl
    | read => exact .dispatches hq hb (.inr ⟨rfl, ho⟩) hb rfl rfl
  · exact .waits (fun _ => by simpa using hb) rfl

/-- R125: the next data bit or the parity goes on the data line. -/
theorem ruleWBitFall_move {s : State} (hq : s.eng.bstate = .wBitFall) : EngineMove s (ruleWBitFall s) := by
  refine .of_guard (by simp [hq]) ?_
  dsimp only
  split_ifs
  all_goals
    exact .proceeds .write (by rw [hq]; rfl) rfl rfl rfl
      (.data _ rfl (by simp [clockModeFits, hq]) (by simp [dataModeFits]))

/-- R145: the next bit of a read or its parity cell. -/
theorem ruleRBitHigh_move {s : State} (hq : s.eng.bstate = .rBitHigh) : EngineMove s (ruleRBitHigh s) := by
  refine .of_guard (by simp [hq]) ?_
  split_ifs
  all_goals
    exact .proceeds .read (by rw [hq]; rfl) rfl rfl rfl
      (.neither rfl (by simp [clockModeFits, hq]) (by simp [dataModeFits, hq]))

/-- Every rule of the engine, by the state that selects it. -/
theorem engineStep_move (s : State) : EngineMove s (engineStep s) := by
  unfold engineStep
  cases hq : s.eng.bstate
  case bUninit => exact .waits (by simp [hq]) rfl
  case bIdle => exact ruleBIdle_move hq
  case wBitFall => exact ruleWBitFall_move hq
  case rBitHigh => exact ruleRBitHigh_move hq
  case wSettle | wStart =>
    exact .of_guard (by simp [hq]) (.proceeds .write (by rw [hq]; rfl) rfl rfl rfl
      (.clock _ rfl (by simp [clockModeFits]) (by simp [dataModeFits, hq])))
  case wInhibit | wDevClk | wParFall =>
    exact .of_guard (by simp [hq]) (.proceeds .write (by rw [hq]; rfl) rfl rfl rfl
      (.data _ rfl (by simp [clockModeFits, hq]) (by simp [dataModeFits])))
  case wBitRise | wParRise | wStopDelay | wStopClkLow =>
    exact .of_guard (by simp [hq]) (.proceeds .write (by rw [hq]; rfl) rfl rfl rfl
      (.neither rfl (by simp [clockModeFits, hq]) (by simp [dataModeFits, hq])))
  case rFreeDelay | rStartLow | rStartSettle | rStartRise | rBitLow | rParLow | rParHigh | rStopLow =>
    exact .of_guard (by simp [hq]) (.proceeds .read (by rw [hq]; rfl) rfl rfl rfl
      (.neither rfl (by simp [clockModeFits, hq]) (by simp [dataModeFits, hq])))
  case wStopBothHigh => exact .of_guard (by simp [hq]) (.completes (.inl hq) rfl)
  case rStopHigh => exact .of_guard (by simp [hq]) (.completes (.inr hq) rfl)

theorem engineStep_binding (s : State) : binding (engineStep s).eng = binding s.eng := by
  cases engineStep_move s with
  | waits _ same => rw [same]
  | dispatches _ _ _ _ kept _ => exact kept
  | proceeds _ _ _ _ kept _ => exact kept
  | completes _ done => rw [done]; rfl

@[simp] theorem engineStep_clockLine (s : State) : (engineStep s).eng.clockLine = s.eng.clockLine :=
  (binding_eq_iff.1 (engineStep_binding s)).1

@[simp] theorem engineStep_dataLine (s : State) : (engineStep s).eng.dataLine = s.eng.dataLine :=
  (binding_eq_iff.1 (engineStep_binding s)).2.1

@[simp] theorem engineStep_op (s : State) : (engineStep s).eng.op = s.eng.op :=
  (binding_eq_iff.1 (engineStep_binding s)).2.2

/-- What holds of the drive modes and survives each write to a bound line holds after the engine's step (R57). -/
theorem engineStep_modes_induct {P : List (LineId × DriveMode) → Prop} {s : State}
    (clock : ∀ ms m, P ms → P (setModeAt ms s.eng.clockLine m))
    (data : ∀ ms m, P ms → P (setModeAt ms s.eng.dataLine m)) (h : P s.modes) : P (engineStep s).modes := by
  cases engineStep_move s with
  | waits _ same => rwa [same]
  | dispatches _ _ _ _ _ modes => rw [modes]; exact data _ _ (clock _ _ h)
  | proceeds _ _ _ _ _ lines =>
    cases lines with
    | neither modes _ _ => rwa [modes]
    | clock m modes _ _ => rw [modes]; exact clock _ _ h
    | data m modes _ _ => rw [modes]; exact data _ _ h
  | completes _ done => rw [done]; exact clock _ _ h

theorem engineStep_modes_rising {s : State} (h : modesRising s.modes) : modesRising (engineStep s).modes :=
  engineStep_modes_induct (fun _ _ => setModeAt_rising _ _) (fun _ _ => setModeAt_rising _ _) h

/-- A line that is not bound is not driven (R57). -/
theorem engineStep_modeOf_other {s : State} {l : LineId} (hc : some l ≠ s.eng.clockLine)
    (hd : some l ≠ s.eng.dataLine) : modeOf (engineStep s).modes l = modeOf s.modes l :=
  engineStep_modes_induct (P := fun ms => modeOf ms l = modeOf s.modes l)
    (fun ms m h => (modeAt_setModeAt_other ms m hc).trans h) (fun ms m h => (modeAt_setModeAt_other ms m hd).trans h) rfl

/-- In `B_IDLE` and after it no line moves (R22 (e)). -/
theorem engineStep_modes_of_idle {s : State} (h : s.eng.bstate = .bIdle) (h' : (engineStep s).eng.bstate = .bIdle) :
    (engineStep s).modes = s.modes := by
  cases engineStep_move s with
  | waits _ same => rw [same]
  | dispatches _ _ first _ _ _ => simp [h'] at first
  | proceeds _ source _ _ _ _ => exact absurd h (inOperation_only source).2.1
  | completes last _ => simp [h] at last

end Sys2Proof.Machine

/-! PROOFS. What a request and one driver transition can do (R102, R103, R161 to R197): wait, or go to the next state of
the sequence, with the request that state awaits. -/

namespace Sys2Proof.Machine

/-- The driver states that wait for an operation of the kind. -/
def awaits (k : OpKind) (q : DrvState) : Bool :=
  match k with
  | .write => awaitsWrite q
  | .read => awaitsRead q

/-- An engine with a request of the kind queued; `v` is the byte of a write, or the `sh` that a read leaves. -/
def queued (k : OpKind) (v : Byte) (e : Engine) : Engine :=
  { e with busy := true, op := k, sh := v }

/-- What `REQW` and `REQR` do where they answer: nothing while no line is bound, else they queue their kind. -/
inductive Requested (k : OpKind) (s t : State) : Prop
  | unbound (h : s.eng.bstate = .bUninit) (same : t = s)
  | queues (v : Byte) (bound : s.eng.bstate ≠ .bUninit) (free : s.eng.busy = false)
      (eq : t = { s with eng := queued k v s.eng })

theorem requestWrite_requested {b : Byte} {s t : State} (h : requestWrite b s = .next t) : Requested .write s t := by
  rcases requestWrite_cases b s with ⟨hu, e⟩ | ⟨-, -, e⟩ | ⟨hb, hf, e⟩ <;> rw [e] at h <;> cases h
  · exact .unbound hu rfl
  · exact .queues b hb hf rfl

theorem requestRead_requested {s t : State} (h : requestRead s = .next t) : Requested .read s t := by
  rcases requestRead_cases s with ⟨hu, e⟩ | ⟨-, -, e⟩ | ⟨hb, hf, e⟩ <;> rw [e] at h <;> cases h
  · exact .unbound hu rfl
  · exact .queues s.eng.sh hb hf rfl

/-- The state that follows in the driver's sequence (R164 to R179, R190 to R197). -/
def successor (q : DrvState) : DrvState :=
  match q with
  | .dUninit => .dUninit
  | .dAttachSettle => .dResetCmd
  | .dResetCmd => .dResetAck
  | .dResetAck => .dResetB1
  | .dResetB1 => .dResetB2
  | .dResetB2 => .dRemoteCmd
  | .dRemoteCmd => .dRemoteAck
  | .dRemoteAck => .dRateCmd
  | .dRateCmd => .dRateCmdAck
  | .dRateCmdAck => .dRateVal
  | .dRateVal => .dRateValAck
  | .dRateValAck => .dResCmd
  | .dResCmd => .dResCmdAck
  | .dResCmdAck => .dResVal
  | .dResVal => .dResValAck
  | .dResValAck => .dInitSettle
  | .dInitSettle => .dPollCmd
  | .dPollCmd => .dPollAck
  | .dPollAck => .dPollStatus
  | .dPollStatus => .dPollX
  | .dPollX => .dPollY
  | .dPollY => .dPollWait
  | .dPollWait => .dPollCmd

/-- The first command is the successor of the attach settle only. -/
theorem successor_eq_dResetCmd {q : DrvState} (h : successor q = .dResetCmd) : q = .dAttachSettle := by
  cases q <;> simp_all [successor]

theorem successor_ne_dAttachSettle (q : DrvState) : successor q ≠ .dAttachSettle := by
  cases q <;> simp [successor]

/-- A state waits for one thing at most. -/
theorem awaits_kind {k : OpKind} {q : DrvState} (h : awaits k q = true) :
    awaitsTime q = false ∧ (awaitsWrite q = true → k = .write) ∧ (awaitsRead q = true → k = .read) := by
  cases k <;> cases q <;> simp_all [awaits, awaitsTime, awaitsWrite, awaitsRead]

theorem awaitsTime_only {q : DrvState} (h : awaitsTime q = true) :
    q ≠ .dUninit ∧ awaitsWrite q = false ∧ awaitsRead q = false := by
  cases q <;> simp_all [awaitsTime, awaitsWrite, awaitsRead]

/-- What a driver transition does to the engine `e`: it makes the request its next state awaits, or none for a timed
wait. -/
inductive DriverDemand (e : Engine) (t : State) : Prop
  | none (timed : awaitsTime t.drv.dstate = true) (eng : t.eng = e)
  | unbound (h : e.bstate = .bUninit) (eng : t.eng = e)
  | request (k : OpKind) (v : Byte) (kind : awaits k t.drv.dstate = true) (bound : e.bstate ≠ .bUninit)
      (free : e.busy = false) (eng : t.eng = queued k v e)

/-- A driver transition whose guard is true. -/
structure DriverMoves (s t : State) : Prop where
  attached : s.drv.dstate ≠ .dUninit
  free : awaitsTime s.drv.dstate = true ∨ s.eng.busy = false
  dstate : t.drv.dstate = successor s.drv.dstate
  demand : DriverDemand s.eng t
  modes : t.modes = s.modes
  platform : t.platform = s.platform
  calls : t.calls = s.calls
  pollInterval : t.drv.pollInterval = s.drv.pollInterval
  /-- Only `D_POLL_Y` decodes (R194, R196). -/
  position : s.drv.dstate ≠ .dPollY →
    t.drv.posx = s.drv.posx ∧ t.drv.posy = s.drv.posy ∧ t.drv.ovf = s.drv.ovf

/-- The demand of a transition that ends with its request. -/
theorem driverDemand_of_requested {k : OpKind} {q : DrvState} {s u : State} (hk : awaits k q = true)
    (h : Requested k s u) : DriverDemand s.eng (setDstate q u) := by
  cases h with
  | unbound hu same => exact .unbound hu (by rw [same]; rfl)
  | queues v bound free eq => exact .request k v hk bound free (by rw [eq]; rfl)

theorem requested_drv {k : OpKind} {s t : State} (h : Requested k s t) :
    t.drv = s.drv ∧ t.modes = s.modes ∧ t.platform = s.platform ∧ t.calls = s.calls := by
  cases h with
  | unbound _ same => simp [same]
  | queues _ _ _ eq => simp [eq]

theorem driverMoves_of_requested {k : OpKind} {s u : State} (hk : awaits k (successor s.drv.dstate) = true)
    (ha : s.drv.dstate ≠ .dUninit) (hf : awaitsTime s.drv.dstate = true ∨ s.eng.busy = false)
    (h : Requested k s u) : DriverMoves s (setDstate (successor s.drv.dstate) u) := by
  obtain ⟨hdrv, hmodes, hplatform, hcalls⟩ := requested_drv h
  exact ⟨ha, hf, rfl, driverDemand_of_requested hk h, hmodes, hplatform, hcalls, by simp [hdrv], by simp [hdrv]⟩

/-- A transition that first takes a byte into `status` or `rawx` (R192, R193) moves as one that takes none. -/
theorem driverMoves_of_taken {status rawx : Byte} {s t : State}
    (h : DriverMoves { s with drv := { s.drv with status := status, rawx := rawx } } t) : DriverMoves s t :=
  ⟨h.attached, h.free, h.dstate, h.demand, h.modes, h.platform, h.calls, h.pollInterval, h.position⟩

theorem issueWrite_moves {b : Byte} {q : DrvState} {s t : State} (h : issueWrite b q s = .next t)
    (hq : q = successor s.drv.dstate) (hk : awaitsWrite q = true) (ha : s.drv.dstate ≠ .dUninit)
    (hf : awaitsTime s.drv.dstate = true ∨ s.eng.busy = false) : DriverMoves s t := by
  subst hq
  obtain ⟨u, hu, e⟩ := andThen_next_iff.1 h
  cases e
  exact driverMoves_of_requested (k := .write) hk ha hf (requestWrite_requested hu)

theorem issueRead_moves {q : DrvState} {s t : State} (h : issueRead q s = .next t)
    (hq : q = successor s.drv.dstate) (hk : awaitsRead q = true) (ha : s.drv.dstate ≠ .dUninit)
    (hf : awaitsTime s.drv.dstate = true ∨ s.eng.busy = false) : DriverMoves s t := by
  subst hq
  obtain ⟨u, hu, e⟩ := andThen_next_iff.1 h
  cases e
  exact driverMoves_of_requested (k := .read) hk ha hf (requestRead_requested hu)

/-- A transition that waits for an operation (R111). -/
theorem whenIdle_moves {act : State → Answer} {s t : State} (h : whenIdle act s = .next t)
    (hact : s.eng.busy = false → act s = .next t → DriverMoves s t) : t = s ∨ DriverMoves s t := by
  rcases whenIdle_next h with ⟨-, same⟩ | ⟨free, e⟩
  · exact .inl same
  · exact .inr (hact free e)

/-- A timed transition waits for its window to end (R90, R164, R179, R197). -/
theorem timedWrite_moves {g : Prop} [Decidable g] {b : Byte} {q : DrvState} {s t : State}
    (h : (if g then issueWrite b q s else .next s) = .next t) (hq : q = successor s.drv.dstate)
    (hk : awaitsWrite q = true) (ha : awaitsTime s.drv.dstate = true) : t = s ∨ DriverMoves s t := by
  split_ifs at h
  · exact .inr (issueWrite_moves h hq hk (awaitsTime_only ha).1 (.inl ha))
  · cases h
    exact .inl rfl

/-- Every transition of the driver, by the state that selects it. -/
theorem driverStep_moves {s t : State} (h : driverStep s = .next t) : t = s ∨ DriverMoves s t := by
  unfold driverStep at h
  cases hq : s.drv.dstate <;> simp only [hq] at h
  case dUninit => cases h; exact .inl rfl
  case dAttachSettle | dInitSettle | dPollWait =>
    exact timedWrite_moves h (by rw [hq]; rfl) rfl (by rw [hq]; rfl)
  case dResetCmd | dResetAck | dResetB1 | dRemoteCmd | dRateCmd | dRateVal | dResCmd | dResVal | dPollCmd | dPollAck =>
    exact whenIdle_moves h fun free e => issueRead_moves e (by rw [hq]; rfl) rfl (by simp [hq]) (.inr free)
  case dResetB2 | dRemoteAck | dRateCmdAck | dRateValAck | dResCmdAck =>
    exact whenIdle_moves h fun free e => issueWrite_moves e (by rw [hq]; rfl) rfl (by simp [hq]) (.inr free)
  case dPollStatus =>
    exact whenIdle_moves h fun free e => driverMoves_of_taken (status := s.eng.rx) (rawx := s.drv.rawx)
      (issueRead_moves e (by simp [hq, successor]) rfl (by simp [hq]) (.inr free))
  case dPollX =>
    exact whenIdle_moves h fun free e => driverMoves_of_taken (status := s.drv.status) (rawx := s.eng.rx)
      (issueRead_moves e (by simp [hq, successor]) rfl (by simp [hq]) (.inr free))
  case dResValAck =>
    refine whenIdle_moves h fun free e => ?_
    cases e
    exact ⟨by simp [hq], .inr free, by rw [hq]; rfl, .none rfl rfl, rfl, rfl, rfl, rfl, fun _ => ⟨rfl, rfl, rfl⟩⟩
  case dPollY =>
    refine whenIdle_moves h fun free e => ?_
    cases e
    exact ⟨by simp [hq], .inr free, by rw [hq]; rfl, .none rfl rfl, rfl, rfl, rfl, rfl, fun ne => absurd hq ne⟩

/-- A driver transition leaves the engine's tag and lines, and the drive modes, to the engine. -/
theorem driverMoves_binding {s t : State} (h : DriverMoves s t) :
    t.eng.bstate = s.eng.bstate ∧ t.eng.clockLine = s.eng.clockLine ∧ t.eng.dataLine = s.eng.dataLine := by
  cases h.demand with
  | none _ eng => simp [eng]
  | unbound _ eng => simp [eng]
  | request _ _ _ _ _ eng => simp [eng, queued]

end Sys2Proof.Machine

/-! PROOFS. What one instruction can do, said once over all of them: a run of a few moves (a sample, a value returned, an
evaluation of the engine's or the driver's rule, a request from outside), or a binding. -/

namespace Sys2Proof.Machine

/-- One move of the block under a fixed binding. -/
inductive Move (s : State) : State → Prop
  | sample (p : Phase) : Move s (samplePhase p s)
  | result (r : Result) : Move s (setResult r s)
  | engine : Move s (engineStep s)
  | driver {t : State} (h : DriverMoves s t) : Move s t
  | request {k : OpKind} {t : State} (unattached : s.drv.dstate = .dUninit) (h : Requested k s t) : Move s t

/-- Any number of moves. -/
abbrev Run : State → State → Prop := Relation.ReflTransGen Move

theorem run_of_driverStep {s t : State} (h : driverStep s = .next t) : Run s t := by
  rcases driverStep_moves h with rfl | h
  · exact .refl
  · exact .single (.driver h)

theorem run_of_execAdvance {s t : State} (h : execAdvance s = .next t) : Run s t :=
  .head .engine (run_of_driverStep h)

theorem run_runPhases (ps : List Phase) (s : State) : Run s (runPhases ps s) := by
  induction ps generalizing s with
  | nil => exact .refl
  | cons p rest ih => exact .head (.sample p) (.head .engine (ih _))

theorem run_of_runAdvances {ps : List Phase} {s t : State} (h : runAdvances ps s = .next t) : Run s t :=
  runAdvances_keeps (P := Run s) (fun p _ hu => hu.tail (.sample p)) (fun _ _ hu e => hu.trans (run_of_execAdvance e))
    .refl h

/-- How a frame begins: with an operation that is pending, or with the caller's request (R72). -/
inductive Begins (s u : State) : Prop
  | pending (same : u = s)
  | request (k : OpKind) (unattached : s.drv.dstate = .dUninit) (h : Requested k s u)

/-- What an instruction that answers a next state does. -/
inductive Effect (i : Instr) (s t : State) : Prop
  /-- A transition not selected, a report not awaited (log entries 8 and 12). -/
  | nothing (same : t = s)
  | returns (r : Result) (eq : t = setResult r s)
  | engine (eq : t = engineStep s)
  /-- A driver transition, as its own row or as the byte it writes (log entry 9). -/
  | driver (row : s.drv.dstate = .dPollY → i = .dPollY) (h : driverStep s = .next t)
  | advance (hi : i = .advance) (h : driverStep (engineStep s) = .next t)
  | request (k : OpKind) (unattached : s.drv.dstate = .dUninit) (h : Requested k s t)
  | binds (c d : LineRef) (hi : i = .assign c d) (unattached : s.drv.dstate = .dUninit) (eq : t = assignLines c d s)
  | attaches (c d : LineRef) (hi : i = .attach c d) (h : execAttach c d s = .next t)
  | frame (hi : (∃ b p, i = .frameH2D b p) ∨ ∃ start b p stop, i = .frameD2H start b p stop) (u : State)
      (begins : Begins s u) (ps : List Phase) (r : Result) (eq : t = setResult r (runPhases ps u))
  | report (hi : ∃ status x y, i = .reportStatus status x y) (awaited : reportAwaited s = true) (ps : List Phase)
      (h : runAdvances ps s = .next t)

theorem effect_of_whenBus {i : Instr} {q : BusState} {rule : State → State} {s t : State}
    (hr : s.eng.bstate = q → engineStep s = rule s) (h : whenBus q rule s = .next t) : Effect i s t := by
  rcases whenBus_next h with ⟨hq, e⟩ | ⟨-, e⟩
  · exact .engine (e.trans (hr hq).symm)
  · exact .nothing e

theorem effect_of_whenDrv {i : Instr} {q : DrvState} {rule : State → Answer} {s t : State}
    (hr : s.drv.dstate = q → driverStep s = rule s) (hi : q = .dPollY → i = .dPollY) (h : whenDrv q rule s = .next t) :
    Effect i s t := by
  rcases whenDrv_next h with ⟨hq, e⟩ | ⟨-, e⟩
  · exact .driver (fun hy => hi (hq.symm.trans hy)) ((hr hq).trans e)
  · exact .nothing e

theorem effect_of_callerWrite {i : Instr} {b : Byte} {s t : State} (h : byCaller s (requestWrite b) = .next t) :
    Effect i s t := by
  obtain ⟨hd, e⟩ := byCaller_next h
  exact .request .write hd (requestWrite_requested e)

theorem effect_of_callerRead {i : Instr} {s t : State} (h : byCaller s requestRead = .next t) : Effect i s t := by
  obtain ⟨hd, e⟩ := byCaller_next h
  exact .request .read hd (requestRead_requested e)

/-- A command byte is the transition at its place, else the caller's request (R68). -/
theorem effect_of_commandByte {i : Instr} {b : Byte} {place : DrvState} {rule : State → Answer} {s t : State}
    (hp : place ≠ .dPollY) (hr : s.drv.dstate = place → driverStep s = rule s)
    (h : commandByte b place rule s = .next t) : Effect i s t := by
  unfold commandByte at h
  split_ifs at h with hq
  · exact .driver (fun hy => absurd (hq.symm.trans hy) hp) ((hr hq).trans h)
  · exact effect_of_callerWrite h

theorem effect_of_cmdRequestData {i : Instr} {s t : State} (h : execCmdRequestData s = .next t) : Effect i s t := by
  unfold execCmdRequestData at h
  split_ifs at h with hq
  · exact .driver (by simp [hq]) (by rwa [driverStep, hq])
  · exact effect_of_commandByte (by decide) (fun hp => by simp only [driverStep, hp]) h

theorem effect_of_frameH2D {b : Byte} {p : Bool} {s t : State} (h : execFrameH2D b p s = .next t) :
    Effect (.frameH2D b p) s t := by
  unfold execFrameH2D at h
  split_ifs at h
  · cases h
    exact .frame (.inl ⟨b, p, rfl⟩) s (.pending rfl) writePhases _ rfl
  · obtain ⟨u, hu, e⟩ := andThen_next_iff.1 h
    obtain ⟨hd, hu⟩ := byCaller_next hu
    cases e
    exact .frame (.inl ⟨b, p, rfl⟩) u (.request .write hd (requestWrite_requested hu)) writePhases _ rfl

theorem effect_of_frameD2H {start p stop : Bool} {b : Byte} {s t : State}
    (h : execFrameD2H start b p stop s = .next t) : Effect (.frameD2H start b p stop) s t := by
  obtain ⟨u, hu, e⟩ := andThen_next_iff.1 h
  cases e
  refine .frame (.inr ⟨start, b, p, stop, rfl⟩) u ?_ (readPhases start b p stop) _ rfl
  split_ifs at hu
  · cases hu
    exact .pending rfl
  · obtain ⟨hd, hu⟩ := byCaller_next hu
    exact .request .read hd (requestRead_requested hu)

theorem effect_of_reportStatus {status rawx rawy : Byte} {s t : State}
    (h : execReportStatus status rawx rawy s = .next t) : Effect (.reportStatus status rawx rawy) s t := by
  rcases execReportStatus_next h with ⟨-, same⟩ | ⟨awaited, run⟩
  · exact .nothing same
  · exact .report ⟨status, rawx, rawy, rfl⟩ awaited _ run

/-- The inversion of `exec`, by the rows of the opcode table. -/
theorem exec_effect {i : Instr} {s t : State} (h : exec i s = .next t) : Effect i s t := by
  cases i
  case assign c d =>
    obtain ⟨hd, e⟩ := byCaller_next (act := fun u => .next (assignLines c d u)) h
    cases e
    exact .binds c d rfl hd rfl
  case reqw b => exact effect_of_callerWrite h
  case reqr => exact effect_of_callerRead h
  case isBusy | take | position =>
    cases h
    exact .returns _ rfl
  case step =>
    obtain ⟨-, e⟩ := byCaller_next (act := fun u => .next (engineStep u)) h
    cases e
    exact .engine rfl
  case attach c d => exact .attaches c d rfl h
  case advance => exact .advance rfl h
  case bUninit | bIdle | wSettle | wInhibit | wStart | wDevClk | wBitRise | wBitFall | wParRise | wParFall | wStopDelay
      | wStopClkLow | wStopBothHigh | rFreeDelay | rStartLow | rStartSettle | rStartRise | rBitLow | rBitHigh | rParLow
      | rParHigh | rStopLow | rStopHigh =>
    exact effect_of_whenBus (fun hq => by simp only [engineStep, hq]) h
  case dUninit | dAttachSettle | dResetCmd | dResetAck | dResetB1 | dResetB2 | dRemoteCmd | dRemoteAck | dRateCmd
      | dRateCmdAck | dRateVal | dRateValAck | dResCmd | dResCmdAck | dResVal | dResValAck | dInitSettle | dPollCmd
      | dPollAck | dPollStatus | dPollX | dPollY | dPollWait =>
    exact effect_of_whenDrv (fun hq => by simp only [driverStep, hq]) (by simp) h
  case cmdReset | cmdRemoteMode | cmdSetRate | argRate200 | cmdSetResolution | argResolution3 =>
    exact effect_of_commandByte (by decide) (fun hq => by simp only [driverStep, hq]) h
  case cmdRequestData => exact effect_of_cmdRequestData h
  case frameH2D b p => exact effect_of_frameH2D h
  case frameD2H start b p stop => exact effect_of_frameD2H h
  case reportStatus status x y => exact effect_of_reportStatus h
  case engReserved | drvReserved | busStateReserved23 | busStateReserved24to31 | drvStateReserved23
      | drvStateReserved24to31 => cases h

theorem Begins.run {s u : State} (h : Begins s u) : Run s u := by
  cases h with
  | pending same => rw [same]
  | request k hd hr => exact .single (.request hd hr)

theorem Begins.drv {s u : State} (h : Begins s u) : u.drv = s.drv := by
  cases h with
  | pending same => rw [same]
  | request k _ hr => exact (requested_drv hr).1

/-- An instruction that binds no line is a run. -/
theorem exec_run_or_binds {i : Instr} {s t : State} (h : exec i s = .next t) :
    Run s t ∨ (∃ c d, i = .assign c d ∧ s.drv.dstate = .dUninit ∧ t = assignLines c d s) ∨
      ∃ c d, i = .attach c d ∧ execAttach c d s = .next t := by
  cases exec_effect h with
  | nothing same => exact .inl (same ▸ .refl)
  | returns r eq => exact .inl (eq ▸ .single (.result r))
  | engine eq => exact .inl (eq ▸ .single .engine)
  | driver _ e => exact .inl (run_of_driverStep e)
  | advance _ e => exact .inl (run_of_execAdvance e)
  | request k hd hr => exact .inl (.single (.request hd hr))
  | binds c d hi hd eq => exact .inr (.inl ⟨c, d, hi, hd, eq⟩)
  | attaches c d hi e => exact .inr (.inr ⟨c, d, hi, e⟩)
  | frame _ u begins ps r eq => exact .inl (eq ▸ (begins.run.trans (run_runPhases ps u)).tail (.result r))
  | report _ _ ps run => exact .inl (run_of_runAdvances run)

/-- A property of states that each move keeps, a run keeps. -/
theorem Run.keeps {P : State → Prop} (hm : ∀ {u v : State}, Move u v → P u → P v) {s t : State} (h : Run s t)
    (hs : P s) : P t := by
  induction h with
  | refl => exact hs
  | tail _ move ih => exact hm move ih

/-- `ATTACH` binds as `ASSIGN` does, then writes the driver's tag and timestamp only (R160). -/
theorem execAttach_cases {c d : LineRef} {s t : State} (h : execAttach c d s = .next t) :
    (lineValid s.platform c d = true ∧ t = setDstate .dAttachSettle (stampDriver (assignLines c d s))) ∨
    (lineValid s.platform c d = false ∧ t = setDstate .dUninit (assignLines c d s)) := by
  unfold execAttach at h
  dsimp only at h
  rcases assignLines_cases c d s with ⟨hv, e⟩ | ⟨hv, e⟩
  · rw [if_neg (by simp [e])] at h
    cases h
    exact .inl ⟨hv, rfl⟩
  · rw [if_pos (by simp [e, Engine.powerOn])] at h
    cases h
    exact .inr ⟨hv, rfl⟩

/-- What binding leaves of the machine: driver and interface; and the lines not in the new pair (R57, R100). -/
theorem assignLines_outside (c d : LineRef) (s : State) :
    (assignLines c d s).drv = s.drv ∧ (assignLines c d s).platform = s.platform ∧
      (assignLines c d s).calls = s.calls ∧
      ∀ l, some l ≠ c → some l ≠ d → modeOf (assignLines c d s).modes l = modeOf s.modes l := by
  rcases assignLines_cases c d s with ⟨-, e⟩ | ⟨-, e⟩
  · refine e ▸ ⟨rfl, rfl, rfl, fun l hc hd => ?_⟩
    exact (modeAt_setModeAt_other _ _ hd).trans (modeAt_setModeAt_other _ _ hc)
  · exact e ▸ ⟨rfl, rfl, rfl, fun _ _ _ => rfl⟩

theorem execAttach_outside {c d : LineRef} {s t : State} (h : execAttach c d s = .next t) :
    (∃ q dt, t.drv = { s.drv with dstate := q, dt := dt }) ∧ t.platform = s.platform ∧ t.calls = s.calls ∧
      ∀ l, some l ≠ c → some l ≠ d → modeOf t.modes l = modeOf s.modes l := by
  obtain ⟨hdrv, rest⟩ := assignLines_outside c d s
  rcases execAttach_cases h with ⟨-, rfl⟩ | ⟨-, rfl⟩
  · exact ⟨⟨_, _, by simp only [setDstate_drv, stampDriver_drv, hdrv]; rfl⟩, rest⟩
  · exact ⟨⟨_, _, by simp only [setDstate_drv, hdrv]; rfl⟩, rest⟩

end Sys2Proof.Machine

/-! PROOFS. What no move writes: the parameters, the calls to come, the lines bound and the drive modes of all others (R20,
R28, R57); the statements on them. -/

namespace Sys2Proof.Machine

/-- `t` has of `s` what is fixed while a pair of lines is bound. -/
structure KeepsSurroundings (s t : State) : Prop where
  pollInterval : t.drv.pollInterval = s.drv.pollInterval
  platform : t.platform = s.platform
  calls : t.calls = s.calls
  clockLine : t.eng.clockLine = s.eng.clockLine
  dataLine : t.eng.dataLine = s.eng.dataLine
  others : ∀ l, some l ≠ s.eng.clockLine → some l ≠ s.eng.dataLine → modeOf t.modes l = modeOf s.modes l

theorem KeepsSurroundings.refl (s : State) : KeepsSurroundings s s :=
  ⟨rfl, rfl, rfl, rfl, rfl, fun _ _ _ => rfl⟩

theorem KeepsSurroundings.trans {s t u : State} (h : KeepsSurroundings s t) (k : KeepsSurroundings t u) :
    KeepsSurroundings s u :=
  ⟨k.pollInterval.trans h.pollInterval, k.platform.trans h.platform, k.calls.trans h.calls,
    k.clockLine.trans h.clockLine, k.dataLine.trans h.dataLine,
    fun l hc hd => (k.others l (h.clockLine ▸ hc) (h.dataLine ▸ hd)).trans (h.others l hc hd)⟩

theorem Move.keepsSurroundings {s t : State} (h : Move s t) : KeepsSurroundings s t := by
  cases h with
  | sample p => exact ⟨rfl, rfl, rfl, rfl, rfl, fun _ _ _ => rfl⟩
  | result r => exact ⟨rfl, rfl, rfl, rfl, rfl, fun _ _ _ => rfl⟩
  | engine =>
    exact ⟨by simp, by simp, by simp, by simp, by simp, fun l hc hd => engineStep_modeOf_other hc hd⟩
  | driver h =>
    obtain ⟨-, hc, hd⟩ := driverMoves_binding h
    exact ⟨h.pollInterval, h.platform, h.calls, hc, hd, fun l _ _ => by rw [h.modes]⟩
  | request _ h =>
    cases h with
    | unbound _ same => exact same ▸ .refl _
    | queues v _ _ eq => exact eq ▸ ⟨rfl, rfl, rfl, rfl, rfl, fun _ _ _ => rfl⟩

theorem Run.keepsSurroundings {s t : State} (h : Run s t) : KeepsSurroundings s t :=
  Run.keeps (P := KeepsSurroundings s) (fun move hu => hu.trans move.keepsSurroundings) h (.refl s)

/-- Settles O60: a run keeps all four, and a binding keeps the first three. -/
theorem parametersAreNeverWritten : Obligations.ParametersAreNeverWritten := by
  intro i s t h
  rcases exec_run_or_binds h with run | ⟨c, d, hi, -, rfl⟩ | ⟨c, d, hi, e⟩
  · obtain ⟨hp, hpl, hcalls, hc, hd, -⟩ := run.keepsSurroundings
    exact ⟨hp, hpl, hcalls, fun _ => ⟨hc, hd⟩⟩
  · obtain ⟨hdrv, hpl, hcalls, -⟩ := assignLines_outside c d s
    exact ⟨by rw [hdrv], hpl, hcalls, fun ne => absurd hi (ne c d).1⟩
  · obtain ⟨⟨q, dt, hdrv⟩, hpl, hcalls, -⟩ := execAttach_outside e
    exact ⟨by rw [hdrv], hpl, hcalls, fun ne => absurd hi (ne c d).2⟩

/-- A driver transition drives no line, and leaves the engine's tag. -/
theorem driverStep_keeps_lines {s t : State} (h : driverStep s = .next t) :
    t.modes = s.modes ∧ t.eng.bstate = s.eng.bstate := by
  rcases driverStep_moves h with rfl | h
  · exact ⟨rfl, rfl⟩
  · exact ⟨h.modes, (driverMoves_binding h).1⟩

/-- Settles O59: a line that is not bound is kept by a run, and by a binding of two others. From `B_IDLE` to `B_IDLE` the
engine's rule did not dispatch, and nothing else but a binding or a whole transfer drives a line. -/
theorem otherLinesAreNeverTouched : Obligations.OtherLinesAreNeverTouched := by
  refine ⟨fun i s t l h hc hd hpair => ?_, fun i s t h hs ht hbind hH2D hD2H hreport => ?_⟩
  · rcases exec_run_or_binds h with run | ⟨c, d, hi, -, rfl⟩ | ⟨c, d, hi, e⟩
    · exact run.keepsSurroundings.others l hc hd
    · obtain ⟨hlc, hld⟩ := hpair c d (.inl hi)
      obtain ⟨-, -, -, others⟩ := assignLines_outside c d s
      exact others l hlc hld
    · obtain ⟨hlc, hld⟩ := hpair c d (.inr hi)
      obtain ⟨-, -, -, others⟩ := execAttach_outside e
      exact others l hlc hld
  · cases exec_effect h with
    | nothing same => rw [same]
    | returns r eq => rw [eq]; rfl
    | engine eq =>
      subst eq
      exact engineStep_modes_of_idle hs ht
    | driver _ e => exact (driverStep_keeps_lines e).1
    | advance _ e =>
      obtain ⟨hm, hb⟩ := driverStep_keeps_lines e
      rw [hm]
      exact engineStep_modes_of_idle hs (hb.symm.trans ht)
    | request k _ hr => exact (requested_drv hr).2.1
    | binds c d hi _ _ => exact absurd hi (hbind c d).1
    | attaches c d hi _ => exact absurd hi (hbind c d).2
    | frame hi _ _ _ _ _ =>
      rcases hi with ⟨b, p, hi⟩ | ⟨start, b, p, stop, hi⟩
      · exact absurd hi (hH2D b p)
      · exact absurd hi (hD2H start b p stop)
    | report hi _ _ _ =>
      obtain ⟨status, x, y, hi⟩ := hi
      exact absurd hi (hreport status x y)

/-- The position or the overflow flag of `d'` is not that of `d`. -/
def PositionMoved (d d' : Driver) : Prop :=
  d'.posx ≠ d.posx ∨ d'.posy ≠ d.posy ∨ d'.ovf ≠ d.ovf

theorem not_positionMoved {d d' : Driver} (h : d'.posx = d.posx ∧ d'.posy = d.posy ∧ d'.ovf = d.ovf) :
    ¬ PositionMoved d d' := by
  simp [PositionMoved, h]

/-- The driver moves the position in `D_POLL_Y` only, and goes to `D_POLL_WAIT` there (R194, R196). -/
theorem driverStep_positionMoved {s t : State} (h : driverStep s = .next t) (hm : PositionMoved s.drv t.drv) :
    s.drv.dstate = .dPollY ∧ t.drv.dstate = .dPollWait := by
  rcases driverStep_moves h with rfl | h
  · exact absurd hm (not_positionMoved ⟨rfl, rfl, rfl⟩)
  · have hd : s.drv.dstate = .dPollY := by
      by_contra ne
      exact not_positionMoved (h.position ne) hm
    exact ⟨hd, by rw [h.dstate, hd]; rfl⟩

theorem reportAwaited_iff {s : State} :
    reportAwaited s = true ↔ s.drv.dstate = .dPollStatus ∧ s.eng.busy = true ∧ s.eng.op = .read ∧
      (s.eng.bstate = .bIdle ∨ s.eng.bstate = .rFreeDelay ∨ s.eng.bstate = .rStartLow) := by
  simp [reportAwaited, frameAwaited, and_assoc, or_assoc]

/-- Settles O58: every other effect leaves the driver's data alone, and `D_POLL_Y` is evaluated by its own row, by
`ADVANCE`, and within a report. -/
theorem onlyTheDecodeMovesThePosition : Obligations.OnlyTheDecodeMovesThePosition := by
  intro i s t h (hm : PositionMoved s.drv t.drv)
  have unmoved (hd : t.drv = s.drv) : False := not_positionMoved (by simp [hd]) hm
  cases exec_effect h with
  | nothing same => exact (unmoved (by rw [same])).elim
  | returns r eq => exact (unmoved (by rw [eq]; rfl)).elim
  | engine eq => exact (unmoved (by rw [eq, engineStep_drv])).elim
  | driver row e =>
    obtain ⟨hd, hw⟩ := driverStep_positionMoved e hm
    exact .inl ⟨.inr (row hd), hd, hw⟩
  | advance hi e =>
    obtain ⟨hd, hw⟩ := driverStep_positionMoved e (by rwa [engineStep_drv])
    exact .inl ⟨.inl hi, engineStep_drv s ▸ hd, hw⟩
  | request k _ hr => exact (unmoved (requested_drv hr).1).elim
  | binds c d _ _ eq => exact (unmoved (by rw [eq]; exact (assignLines_outside c d s).1)).elim
  | attaches c d _ e =>
    obtain ⟨⟨q, dt, hd⟩, -⟩ := execAttach_outside e
    exact absurd hm (not_positionMoved (by simp [hd]))
  | frame _ u begins ps r eq =>
    exact (unmoved (by rw [eq]; exact (runPhases_outside ps u).1.trans begins.drv)).elim
  | report hi awaited _ _ =>
    obtain ⟨hd, hb, ho, -⟩ := reportAwaited_iff.1 awaited
    exact .inr ⟨hi, hd, hb, ho⟩

end Sys2Proof.Machine

/-! PROOFS. Every move keeps the invariant (R22, R30, R258, R260), and so does a binding; so every step does, and `ADVANCE`
always answers. -/

namespace Sys2Proof.Machine

-- What the invariants read of a state.

theorem engineInv_congr {s t : State} (heng : t.eng = s.eng) (h : EngineInv s) : EngineInv t := by
  obtain ⟨unbound, pending, writing, reading⟩ := h
  rw [← heng] at unbound pending writing reading
  exact ⟨unbound, pending, writing, reading⟩

theorem linesInv_congr {s t : State} (heng : t.eng = s.eng) (hm : t.modes = s.modes) (hp : t.platform = s.platform)
    (h : LinesInv s) : LinesInv t := by
  obtain ⟨rising, bound, clock, data⟩ := h
  rw [← heng] at bound clock data
  rw [← hm] at rising clock data
  rw [← hp] at bound
  exact ⟨rising, bound, clock, data⟩

/-- A bound line is an identifier (R41), so what is written to it is read back. -/
theorem modeAt_setModeAt_self {ms : List (LineId × DriveMode)} {l : LineRef} (m : DriveMode) (h : l ≠ none) :
    modeAt (setModeAt ms l m) l = some m := by
  obtain ⟨x, rfl⟩ := Option.ne_none_iff_exists'.1 h
  exact modeAt_setModeAt_same ms x m

/-- Both lines of a new pair are released, the one line of a pair that names it twice too (R100). -/
theorem modeAt_release_pair {ms : List (LineId × DriveMode)} {c d : LineRef} (hc : c ≠ none) :
    modeAt (setModeAt (setModeAt ms c .released) d .released) c = some .released := by
  by_cases h : c = d
  · subst h
    exact modeAt_setModeAt_self _ hc
  · rw [modeAt_setModeAt_other _ _ h, modeAt_setModeAt_self _ hc]

-- The engine's invariant, by where the engine is.

theorem engineInv_of_idle {s : State} (h : s.eng.bstate = .bIdle) : EngineInv s := by
  constructor <;> simp [h, inWrite, inRead]

theorem engineInv_of_operation {k : OpKind} {s : State} (hq : inOperation k s.eng.bstate = true)
    (hb : s.eng.busy = true) (ho : s.eng.op = k) : EngineInv s := by
  obtain ⟨hu, -, hw, hr⟩ := inOperation_only hq
  exact ⟨fun e => absurd e hu, fun _ _ => hb, fun e => ho.trans (hw e), fun e => ho.trans (hr e)⟩

/-- In a wait of an operation that operation is pending (R22 (b), (c)). -/
theorem EngineInv.of_operation {k : OpKind} {s : State} (h : EngineInv s) (hq : inOperation k s.eng.bstate = true) :
    s.eng.busy = true ∧ s.eng.op = k := by
  obtain ⟨hu, hi, -, -⟩ := inOperation_only hq
  refine ⟨h.pending hu hi, ?_⟩
  cases k with
  | write => exact h.writing hq
  | read => exact h.reading hq

/-- A bound engine with nothing pending is in `B_IDLE` (R22 (b)). -/
theorem EngineInv.idle_of_free {s : State} (h : EngineInv s) (hb : s.eng.bstate ≠ .bUninit)
    (hf : s.eng.busy = false) : s.eng.bstate = .bIdle := by
  by_contra hi
  simp [h.pending hb hi] at hf

theorem LinesInv.lines_ne_none {s : State} (h : LinesInv s) (hb : s.eng.bstate ≠ .bUninit) :
    s.eng.clockLine ≠ none ∧ s.eng.dataLine ≠ none := by
  obtain ⟨x, y, hx, hy⟩ := lineValid_pair (h.bound hb)
  simp [hx, hy]

-- The engine's step.

theorem engineStep_of_unbound {s : State} (h : s.eng.bstate = .bUninit) : engineStep s = s := by
  simp [engineStep, h, ruleBUninit]

theorem engineStep_of_idle_free {s : State} (h : s.eng.bstate = .bIdle) (hf : s.eng.busy = false) :
    engineStep s = s := by
  simp [engineStep, h, ruleBIdle, hf]

/-- Only a request sets `busy` (R13). -/
theorem busy_of_engineStep {s : State} (h : (engineStep s).eng.busy = true) : s.eng.busy = true := by
  cases engineStep_move s with
  | waits _ same => rwa [same] at h
  | dispatches _ queued _ _ _ _ => exact queued
  | proceeds _ _ _ busy _ _ => rwa [← busy]
  | completes _ done => simp [done] at h

/-- No step leaves a request queued in `B_IDLE` (R109). -/
theorem engineStep_free_of_idle {s : State} (h : (engineStep s).eng.bstate = .bIdle) :
    (engineStep s).eng.busy = false := by
  cases engineStep_move s with
  | waits nothingQueued same =>
    rw [same] at h ⊢
    exact nothingQueued h
  | dispatches _ _ first _ _ _ => simp [h] at first
  | proceeds _ _ target _ _ _ => exact absurd h (inOperation_only target).2.1
  | completes _ done => rw [done]; rfl

theorem engineStep_keeps_engineInv {s : State} (h : EngineInv s) : EngineInv (engineStep s) := by
  cases engineStep_move s with
  | waits _ same => rwa [same]
  | dispatches _ _ first busy _ _ =>
    rcases first with ⟨hq, ho⟩ | ⟨hq, ho⟩
    · exact engineInv_of_operation (k := .write) (by rw [hq]; rfl) busy (by rw [engineStep_op, ho])
    · exact engineInv_of_operation (k := .read) (by rw [hq]; rfl) busy (by rw [engineStep_op, ho])
  | proceeds k source target busy _ _ =>
    obtain ⟨hb, ho⟩ := h.of_operation source
    exact engineInv_of_operation target (busy.trans hb) (by rw [engineStep_op, ho])
  | completes _ done => exact done ▸ engineInv_of_idle rfl

/-- Both lines have the modes the next state fixes (R260). -/
theorem engineStep_modesFit {s : State} (h : LinesInv s) (hne : s.eng.clockLine ≠ s.eng.dataLine) :
    clockModeFits (engineStep s).eng (modeAt (engineStep s).modes s.eng.clockLine) ∧
      dataModeFits (engineStep s).eng (modeAt (engineStep s).modes s.eng.dataLine) := by
  by_cases hu : s.eng.bstate = .bUninit
  · simp [engineStep_of_unbound hu, clockModeFits, dataModeFits, hu]
  obtain ⟨hc, hd⟩ := h.lines_ne_none hu
  have clock := h.clock hne
  have data := h.data hne
  cases engineStep_move s with
  | waits _ same => rw [same]; exact ⟨clock, data⟩
  | dispatches _ _ first _ _ modes =>
    rw [modes, modeAt_release_pair hc, modeAt_setModeAt_self _ hd]
    rcases first with ⟨hq, -⟩ | ⟨hq, -⟩ <;> simp [clockModeFits, dataModeFits, hq]
  | proceeds _ _ _ _ _ lines =>
    cases lines with
    | neither modes keepsClock keepsData => rw [modes]; exact ⟨keepsClock _ clock, keepsData _ data⟩
    | clock m modes fits keepsData =>
      rw [modes, modeAt_setModeAt_self _ hc, modeAt_setModeAt_other _ _ hne.symm]
      exact ⟨fits, keepsData _ data⟩
    | data m modes keepsClock fits =>
      rw [modes, modeAt_setModeAt_self _ hd, modeAt_setModeAt_other _ _ hne]
      exact ⟨keepsClock _ clock, fits⟩
  | completes last done =>
    rw [done, completeOperation_modes, modeAt_setModeAt_self _ hc, modeAt_setModeAt_other _ _ hne.symm]
    rcases last with hq | hq
    all_goals
      rw [dataModeFits, hq] at data
      simp [clockModeFits, dataModeFits, data]

theorem engineStep_keeps_linesInv {s : State} (h : LinesInv s) : LinesInv (engineStep s) where
  rising := engineStep_modes_rising h.rising
  bound hb := by
    have hu : s.eng.bstate ≠ .bUninit := fun e => hb (by rw [engineStep_of_unbound e, e])
    simpa using h.bound hu
  clock hne := by
    simp only [engineStep_clockLine, engineStep_dataLine] at hne ⊢
    exact (engineStep_modesFit h hne).1
  data hne := by
    simp only [engineStep_clockLine, engineStep_dataLine] at hne ⊢
    exact (engineStep_modesFit h hne).2

/-- The clock line is held low where an operation ends, and stays so (R258). -/
theorem engineStep_clock_held {s : State} (h : Inv s) (hb : s.eng.bstate ≠ .bUninit)
    (held : s.eng.busy = false → modeAt s.modes s.eng.clockLine = some .assertedLow)
    (hf : (engineStep s).eng.busy = false) :
    modeAt (engineStep s).modes s.eng.clockLine = some .assertedLow := by
  cases engineStep_move s with
  | waits _ same =>
    rw [same] at hf ⊢
    exact held hf
  | dispatches _ _ _ busy _ _ => simp [busy] at hf
  | proceeds _ source _ busy _ _ =>
    obtain ⟨pending, -⟩ := h.engine.of_operation source
    simp [busy, pending] at hf
  | completes _ done => rw [done]; exact modeAt_setModeAt_self _ (h.lines.lines_ne_none hb).1

theorem engineStep_keeps_driverInv {s : State} (h : Inv s) : DriverInv (engineStep s) := by
  by_cases timed : awaitsTime s.drv.dstate = true
  · obtain ⟨hf, hi⟩ := h.driver.idle timed
    rw [engineStep_of_idle_free hi hf]
    exact h.driver
  have queuedNever {P : Prop} (hi : (engineStep s).eng.bstate = .bIdle) (hb : (engineStep s).eng.busy = true) : P := by
    simp [engineStep_free_of_idle hi] at hb
  constructor <;> simp only [engineStep_drv, engineStep_op, engineStep_clockLine]
  case attached =>
    intro ha hu
    cases engineStep_move s with
    | waits _ same => exact h.driver.attached ha (same ▸ hu)
    | dispatches _ _ first _ _ _ => simp [hu] at first
    | proceeds _ _ target _ _ _ => exact (inOperation_only target).1 hu
    | completes _ done => simp [done] at hu
  case idle => exact fun e => absurd e timed
  case writeAwaited => exact fun hw hb => h.driver.writeAwaited hw (busy_of_engineStep hb)
  case readAwaited => exact fun hr hb => h.driver.readAwaited hr (busy_of_engineStep hb)
  case attachReleased => exact fun e => absurd (by rw [e]; rfl) timed
  case firstReleased => exact fun _ hi hb => queuedNever hi hb
  case heldAfter =>
    exact fun ha hs hf => engineStep_clock_held h (h.driver.attached ha) (h.driver.heldAfter ha hs) hf
  case heldUntilDispatch => exact fun _ _ hi hb => queuedNever hi hb

theorem engineStep_keeps_inv {s : State} (h : Inv s) : Inv (engineStep s) :=
  ⟨engineStep_keeps_engineInv h.engine, engineStep_keeps_linesInv h.lines, engineStep_keeps_driverInv h⟩

-- Requests.

/-- A request that is queued changes neither the lines nor what their modes are to be: in `B_IDLE` they depend on no
register that it writes. -/
theorem linesInv_of_queued {s t : State} {k : OpKind} {v : Byte} (hi : s.eng.bstate = .bIdle)
    (heng : t.eng = queued k v s.eng) (hm : t.modes = s.modes) (hp : t.platform = s.platform) (h : LinesInv s) :
    LinesInv t := by
  obtain ⟨rising, bound, clock, data⟩ := h
  simp only [clockModeFits, dataModeFits, hi] at clock data
  constructor <;> simp only [heng, hm, hp, queued, clockModeFits, dataModeFits, hi]
  case rising => exact rising
  case bound => exact fun _ => bound (by simp [hi])
  case clock => exact clock
  case data => exact data

/-- A request from outside: the driver is not attached. -/
theorem requested_keeps_inv {k : OpKind} {s t : State} (hd : s.drv.dstate = .dUninit) (hr : Requested k s t)
    (h : Inv s) : Inv t := by
  cases hr with
  | unbound _ same => rwa [same]
  | queues v bound free eq =>
    have hi := h.engine.idle_of_free bound free
    subst eq
    exact ⟨engineInv_of_idle hi, linesInv_of_queued hi rfl rfl rfl h.lines, driverInv_of_unattached hd⟩

-- The driver's transition.

/-- A transition that goes to a timed wait: the clock line stays held low (R178, R194, R258). -/
theorem driverInv_of_timed {s t : State} (h : Inv s) (m : DriverMoves s t)
    (timed : awaitsTime t.drv.dstate = true) (eng : t.eng = s.eng) : DriverInv t := by
  obtain ⟨attached, notWrite, notRead⟩ := awaitsTime_only timed
  have bound := h.driver.attached m.attached
  have notSettle : s.drv.dstate ≠ .dAttachSettle := fun e => by
    simp [m.dstate, e, successor, awaitsTime] at timed
  have free : s.eng.busy = false := m.free.elim (fun e => (h.driver.idle e).1) id
  have held := h.driver.heldAfter m.attached notSettle free
  constructor <;> simp only [eng, m.modes]
  case attached => exact fun _ => bound
  case idle => exact fun _ => ⟨free, h.engine.idle_of_free bound free⟩
  case writeAwaited => simp [notWrite]
  case readAwaited => simp [notRead]
  case attachReleased => exact fun e => absurd (m.dstate.symm.trans e) (successor_ne_dAttachSettle _)
  case firstReleased => simp [free]
  case heldAfter => exact fun _ _ _ => held
  case heldUntilDispatch => simp [free]

/-- A transition that makes a request: until the dispatch the clock line stays released before the first command, and
held low before every other operation (R258). -/
theorem driverInv_of_request {s t : State} {k : OpKind} {v : Byte} (h : Inv s) (m : DriverMoves s t)
    (kind : awaits k t.drv.dstate = true) (free : s.eng.busy = false) (eng : t.eng = queued k v s.eng) :
    DriverInv t := by
  obtain ⟨notTimed, hw, hr⟩ := awaits_kind kind
  constructor <;> simp only [eng, m.modes, queued]
  case attached => exact fun _ => h.driver.attached m.attached
  case idle => simp [notTimed]
  case writeAwaited => exact fun e _ => hw e
  case readAwaited => exact fun e _ => hr e
  case attachReleased => exact fun e => absurd (m.dstate.symm.trans e) (successor_ne_dAttachSettle _)
  case firstReleased =>
    exact fun e _ _ => h.driver.attachReleased (successor_eq_dResetCmd (m.dstate.symm.trans e))
  case heldAfter => simp
  case heldUntilDispatch =>
    exact fun _ ne _ _ => h.driver.heldAfter m.attached (fun e => ne (by rw [m.dstate, e]; rfl)) free

theorem driverMoves_keeps_inv {s t : State} (m : DriverMoves s t) (h : Inv s) : Inv t := by
  have bound := h.driver.attached m.attached
  cases m.demand with
  | none timed eng =>
    exact ⟨engineInv_congr eng h.engine, linesInv_congr eng m.modes m.platform h.lines,
      driverInv_of_timed h m timed eng⟩
  | unbound hu _ => exact absurd hu bound
  | request k v kind _ free eng =>
    have hi := h.engine.idle_of_free bound free
    exact ⟨engineInv_of_idle (by rw [eng]; exact hi), linesInv_of_queued hi eng m.modes m.platform h.lines,
      driverInv_of_request h m kind free eng⟩

/-- A move that writes the interface only. -/
theorem inv_of_interface {s t : State} (heng : t.eng = s.eng) (hd : t.drv = s.drv) (hm : t.modes = s.modes)
    (hp : t.platform = s.platform) (h : Inv s) : Inv t := by
  refine ⟨engineInv_congr heng h.engine, linesInv_congr heng hm hp h.lines, ?_⟩
  obtain ⟨attached, idle, write, read, settle, first, after, held⟩ := h.driver
  rw [← heng, ← hd] at attached idle write read
  rw [← heng, ← hd, ← hm] at settle first after held
  exact ⟨attached, idle, write, read, settle, first, after, held⟩

theorem Move.keeps_inv {s t : State} (m : Move s t) (h : Inv s) : Inv t := by
  cases m with
  | sample p => exact inv_of_interface (s := s) rfl rfl rfl rfl h
  | result r => exact inv_of_interface (s := s) rfl rfl rfl rfl h
  | engine => exact engineStep_keeps_inv h
  | driver m => exact driverMoves_keeps_inv m h
  | request hd hr => exact requested_keeps_inv hd hr h

-- Bindings.

theorem assignLines_keeps_engineInv (c d : LineRef) (s : State) : EngineInv (assignLines c d s) := by
  rcases assignLines_cases c d s with ⟨-, e⟩ | ⟨-, e⟩
  · exact engineInv_of_idle (by rw [e])
  · exact engineInv_of_powerOn (by rw [e])

/-- A new pair is released in both places (R100); a pair that cannot be bound leaves no line (R101). -/
theorem assignLines_keeps_linesInv (c d : LineRef) {s : State} (h : modesRising s.modes) :
    LinesInv (assignLines c d s) := by
  rcases assignLines_cases c d s with ⟨hv, e⟩ | ⟨-, e⟩ <;> rw [e]
  · obtain ⟨x, y, rfl, rfl⟩ := lineValid_pair hv
    refine ⟨setModeAt_rising (some y) _ (setModeAt_rising (some x) _ h), fun _ => hv, fun _ => ?_, fun _ => ?_⟩
    · simp [clockModeFits, modeAt_release_pair]
    · simp [dataModeFits]
  · exact linesInv_of_powerOn rfl h

/-- `ATTACH` starts the driver with both lines released, or leaves it unattached (R160). -/
theorem execAttach_keeps_inv {c d : LineRef} {s t : State} (h : Inv s) (e : execAttach c d s = .next t) : Inv t := by
  set u := assignLines c d s
  have engine : EngineInv u := assignLines_keeps_engineInv c d s
  have lines : LinesInv u := assignLines_keeps_linesInv c d h.lines.rising
  rcases execAttach_cases e with ⟨hv, rfl⟩ | ⟨-, rfl⟩
  · refine ⟨engineInv_congr (s := u) rfl engine, linesInv_congr (s := u) rfl rfl rfl lines, ?_⟩
    rcases assignLines_cases c d s with ⟨-, ea⟩ | ⟨hv', -⟩
    · obtain ⟨x, y, rfl, rfl⟩ := lineValid_pair hv
      constructor <;> simp [ea, Engine.powerOn, awaitsTime, awaitsWrite, awaitsRead, modeAt_release_pair]
    · simp [hv] at hv'
  · exact ⟨engineInv_congr (s := u) rfl engine, linesInv_congr (s := u) rfl rfl rfl lines, driverInv_of_unattached rfl⟩

/-- Every instruction keeps the invariant. -/
theorem exec_keeps_inv {i : Instr} {s t : State} (h : Inv s) (e : exec i s = .next t) : Inv t := by
  rcases exec_run_or_binds e with run | ⟨c, d, -, hd, rfl⟩ | ⟨c, d, -, e⟩
  · exact run.keeps Move.keeps_inv h
  · exact ⟨assignLines_keeps_engineInv c d s, assignLines_keeps_linesInv c d h.lines.rising,
      driverInv_of_unattached (by rw [(assignLines_outside c d s).1, hd])⟩
  · exact execAttach_keeps_inv h e

/-- What a step that answers has done: nothing with no call to make, else the instruction of the next call (R9, R222). -/
theorem step_next {s t : State} (h : step s = .next t) :
    (s.calls = [] ∧ t = s) ∨
      ∃ c rest i, s.calls = c :: rest ∧ decode c.word = .ok i ∧ exec i (beginCall c rest s) = .next t := by
  unfold step at h
  split at h
  next hc =>
    cases h
    exact .inl ⟨hc, rfl⟩
  next c rest hc =>
    split at h
    next i hi => exact .inr ⟨c, rest, i, hc, hi, h⟩
    next => cases h

/-- Settles O11: beginning the call writes the interface only, and its instruction keeps the invariant. -/
theorem everyStepKeepsTheInvariant : Obligations.EveryStepKeepsTheInvariant := by
  intro s s' h e
  rcases step_next e with ⟨-, rfl⟩ | ⟨c, rest, i, -, -, e⟩
  · exact h
  · exact exec_keeps_inv (s := beginCall c rest s) (inv_of_interface (s := s) rfl rfl rfl rfl h) e

-- The driver's transition answers.

/-- A request to a free engine is not refused (R107). -/
theorem issueWrite_answers {b : Byte} {q : DrvState} {s : State} (hf : s.eng.busy = false) :
    ∃ t, issueWrite b q s = .next t := by
  rcases requestWrite_cases b s with ⟨-, e⟩ | ⟨-, hb, -⟩ | ⟨-, -, e⟩
  · exact ⟨_, andThen_next_iff.2 ⟨_, e, rfl⟩⟩
  · simp [hf] at hb
  · exact ⟨_, andThen_next_iff.2 ⟨_, e, rfl⟩⟩

theorem issueRead_answers {q : DrvState} {s : State} (hf : s.eng.busy = false) : ∃ t, issueRead q s = .next t := by
  rcases requestRead_cases s with ⟨-, e⟩ | ⟨-, hb, -⟩ | ⟨-, -, e⟩
  · exact ⟨_, andThen_next_iff.2 ⟨_, e, rfl⟩⟩
  · simp [hf] at hb
  · exact ⟨_, andThen_next_iff.2 ⟨_, e, rfl⟩⟩

theorem whenIdle_answers {act : State → Answer} {s : State} (h : s.eng.busy = false → ∃ t, act s = .next t) :
    ∃ t, whenIdle act s = .next t := by
  unfold whenIdle
  split_ifs with hb
  · exact ⟨s, rfl⟩
  · exact h (by simpa using hb)

theorem timedWrite_answers {g : Prop} [Decidable g] {b : Byte} {q : DrvState} {s : State} (hf : s.eng.busy = false) :
    ∃ t, (if g then issueWrite b q s else .next s) = .next t := by
  split_ifs
  · exact issueWrite_answers hf
  · exact ⟨s, rfl⟩

/-- A driver whose timed waits find the engine free is never refused: its other waits look at `busy` themselves (R30,
R111). -/
theorem driverStep_answers {s : State} (h : awaitsTime s.drv.dstate = true → s.eng.busy = false) :
    ∃ t, driverStep s = .next t := by
  unfold driverStep
  cases hq : s.drv.dstate
  case dUninit => exact ⟨s, rfl⟩
  case dAttachSettle | dInitSettle | dPollWait => exact timedWrite_answers (h (by rw [hq]; rfl))
  case dResetCmd | dResetAck | dResetB1 | dRemoteCmd | dRateCmd | dRateVal | dResCmd | dResVal | dPollCmd | dPollAck =>
    exact whenIdle_answers issueRead_answers
  case dResetB2 | dRemoteAck | dRateCmdAck | dRateValAck | dResCmdAck => exact whenIdle_answers issueWrite_answers
  case dPollStatus => exact whenIdle_answers fun hf => issueRead_answers (s := setStatus s.eng.rx s) hf
  case dPollX => exact whenIdle_answers fun hf => issueRead_answers (s := setRawx s.eng.rx s) hf
  case dResValAck | dPollY => exact whenIdle_answers fun _ => ⟨_, rfl⟩

/-- Settles O12: the engine's step keeps the invariant, under which the driver's transition answers. -/
theorem advanceNeverRequestsWhileBusy : Obligations.AdvanceNeverRequestsWhileBusy := by
  intro s h
  exact driverStep_answers fun timed => ((engineStep_keeps_inv h).driver.idle timed).1

end Sys2Proof.Machine

/-! PROOFS. The level of a line after `Release` and `AssertLow`, and the two sampled levels (R42, R43, R44). -/

namespace Sys2Proof.Machine

/-- A released line is high unless the device pulls it (R44). -/
theorem levelOf_of_released {ms : List (LineId × DriveMode)} {l : LineRef} (h : modeAt ms l = some .released)
    (pulled : Bool) : levelOf ms l pulled = if pulled then .low else .high := by
  simp [levelOf, h]

/-- A line driven low is low, whatever the device does (R44). -/
theorem levelOf_of_assertedLow {ms : List (LineId × DriveMode)} {l : LineRef} (h : modeAt ms l = some .assertedLow)
    (pulled : Bool) : levelOf ms l pulled = .low :=
  levelOf_low.2 (.inl h)

/-- One line bound as clock and data has one level (log entry 28). -/
theorem datLevel_eq_clkLevel {s : State} (h : s.eng.clockLine = s.eng.dataLine) : datLevel s = clkLevel s := by
  simp only [datLevel, clkLevel, h]

/-- Settles O14: both primitives write the mode of their one line, and the mode with the pull fixes the level. -/
theorem levelAfterReleaseAndAssertLow : Obligations.LevelAfterReleaseAndAssertLow := by
  refine ⟨fun s => ⟨clkLevel_low, clkLevel_high, datLevel_high, datLevel_eq_clkLevel⟩, fun s l pulled => ⟨?_, ?_, ?_⟩⟩
  · exact levelOf_of_released (modeAt_setModeAt_same s.modes l .released) pulled
  · exact levelOf_of_assertedLow (modeAt_setModeAt_same s.modes l .assertedLow) pulled
  · intro k hk
    have hk' : some k ≠ some l := fun e => hk (Option.some.inj e)
    exact ⟨modeAt_setModeAt_other s.modes .released hk', modeAt_setModeAt_other s.modes .assertedLow hk'⟩

end Sys2Proof.Machine

/-! PROOFS. The cells of a frame as its code word holds them (R66, R67): each cell read back, and a word of eleven bits given
by the cells read from it. -/

namespace Sys2Proof

/-- The eleven cells of a frame, the first in bit 0 (R66, R67): start, data, parity, stop. -/
def frameCells (start : Bool) (b : Byte) (p stop : Bool) : BitVec 16 :=
  0#5 ++ (BitVec.ofBool stop ++ (BitVec.ofBool p ++ (b ++ BitVec.ofBool start)))

theorem encode_frameD2H (start : Bool) (b : Byte) (p stop : Bool) :
    encode (.frameD2H start b p stop) = plainWord .frameD2H (frameCells start b p stop) := rfl

/-- In a frame of the block the start cell is 0 and the stop cell 1 (R66). -/
theorem encode_frameH2D (b : Byte) (p : Bool) :
    encode (.frameH2D b p) = plainWord .frameH2D (frameCells false b p true) := by
  have hsplit : (1#6 : BitVec 6) = 0#5 ++ 1#1 := by decide
  have hcells : ∀ v : BitVec 10, (1#6 ++ v : BitVec 16) = (0#5 ++ (1#1 ++ v) : BitVec 16) := fun v => by
    rw [hsplit]
    exact BitVec.append_assoc
  exact congrArg (plainWord .frameH2D) (hcells _)

theorem frameCells_lt (start : Bool) (b : Byte) (p stop : Bool) : (frameCells start b p stop).toNat < 2048 :=
  Laws.CodeFits.frameD2H start b p stop

/-- Cell `k` of a frame. -/
theorem getLsbD_frameCells (start : Bool) (b : Byte) (p stop : Bool) (k : Nat) :
    (frameCells start b p stop).getLsbD k =
      if k = 0 then start else if k < 9 then b.getLsbD (k - 1) else if k = 9 then p else decide (k = 10) && stop := by
  change BitVec.getLsbD (w := 5 + (1 + (1 + (8 + 1))))
    (0#5 ++ (BitVec.ofBool stop ++ (BitVec.ofBool p ++ (b ++ BitVec.ofBool start)))) k = _
  simp only [BitVec.getLsbD_append, BitVec.getLsbD_ofBool, BitVec.getLsbD_zero]
  rcases (by omega : k = 0 ∨ (k ≠ 0 ∧ k < 9) ∨ k = 9 ∨ k = 10 ∨ 10 < k) with rfl | ⟨h0, h9⟩ | rfl | rfl | h10
  · rfl
  · have h10 : k < 10 := by omega
    have h11 : k < 11 := by omega
    simp [h0, h9, h10, h11]
  · rfl
  · rfl
  · have h0 : k ≠ 0 := by omega
    have h9 : ¬ k < 9 := by omega
    have h9' : k ≠ 9 := by omega
    have h11 : ¬ k < 11 := by omega
    simp [h0, h9, h9', h11, h10.ne']

theorem frameCells_start (start : Bool) (b : Byte) (p stop : Bool) : (frameCells start b p stop).getLsbD 0 = start :=
  getLsbD_frameCells start b p stop 0

theorem frameCells_parity (start : Bool) (b : Byte) (p stop : Bool) : (frameCells start b p stop).getLsbD 9 = p :=
  getLsbD_frameCells start b p stop 9

theorem frameCells_stop (start : Bool) (b : Byte) (p stop : Bool) : (frameCells start b p stop).getLsbD 10 = stop :=
  getLsbD_frameCells start b p stop 10

theorem frameCells_data (start : Bool) (b : Byte) (p stop : Bool) :
    (frameCells start b p stop).extractLsb' 1 8 = b := by
  apply BitVec.eq_of_getLsbD_eq
  intro k hk
  have h9 : 1 + k < 9 := by omega
  simp [getLsbD_frameCells, hk, h9]

/-- A word of eleven bits is the cells read from it: no bit is dropped. -/
theorem frameCells_of_lt {v : BitVec 16} (h : v.toNat < 2048) :
    frameCells (v.getLsbD 0) (v.extractLsb' 1 8) (v.getLsbD 9) (v.getLsbD 10) = v := by
  have hhigh : ∀ k, 10 < k → v.getLsbD k = false := fun k hk =>
    Nat.testBit_lt_two_pow (h.trans_le (Nat.pow_le_pow_right (n := 2) (by decide) hk))
  apply BitVec.eq_of_getLsbD_eq
  intro k _
  rw [getLsbD_frameCells, BitVec.getLsbD_extractLsb']
  split_ifs with h0 h9 h9'
  · rw [h0]
  · have hk : 1 + (k - 1) = k := by omega
    have h8 : k - 1 < 8 := by omega
    simp [hk, h8]
  · rw [h9']
  · by_cases h10 : k = 10
    · simp [h10]
    · simp [h10, hhigh k (by omega)]

theorem decodeFrameH2D_ok_iff {w : CodeWord} {i : Instr} :
    decodeFrameH2D w = .ok i ↔ w.code.toNat < 2048 ∧ w.code.getLsbD 0 = false ∧ w.code.getLsbD 10 = true ∧
      i = .frameH2D (w.code.extractLsb' 1 8) (w.code.getLsbD 9) := by
  unfold decodeFrameH2D
  split_ifs with hwide hstart hstop
  · simp only [false_iff]
    omega
  · simp only [reduceCtorEq, hstart, false_and, and_false]
  · rw [Bool.not_eq_true'] at hstop
    simp only [hstop, false_and, and_false, Bool.false_eq_true]
  · rw [Bool.not_eq_true] at hstart
    rw [Bool.not_eq_true', Bool.not_eq_false] at hstop
    simp only [Except.ok.injEq, Nat.lt_of_not_le hwide, hstart, hstop, true_and, eq_comm]

theorem decodeFrameD2H_ok_iff {w : CodeWord} {i : Instr} :
    decodeFrameD2H w = .ok i ↔ w.code.toNat < 2048 ∧
      i = .frameD2H (w.code.getLsbD 0) (w.code.extractLsb' 1 8) (w.code.getLsbD 9) (w.code.getLsbD 10) := by
  unfold decodeFrameD2H
  split_ifs with hwide
  · simp only [false_iff]
    omega
  · simp only [Except.ok.injEq, Nat.lt_of_not_le hwide, true_and, eq_comm]

theorem decodeReport_ok_iff {w : CodeWord} {i : Instr} :
    decodeReport w = .ok i ↔ w.code.toNat < 256 ∧
      i = .reportStatus (w.code.extractLsb' 0 8) w.xbyte w.ybyte := by
  unfold decodeReport
  split_ifs with hwide
  · simp only [false_iff]
    omega
  · simp only [Except.ok.injEq, Nat.lt_of_not_le hwide, true_and, eq_comm]

/-- The status byte is the low half of its word. -/
theorem extractLsb'_reportCode (status : Byte) : (0#8 ++ status : BitVec 16).extractLsb' 0 8 = status :=
  BitVec.extractLsb'_append_eq_right

/-- A word of eight bits is its low half. -/
theorem reportCode_of_lt {v : BitVec 16} (h : v.toNat < 256) : (0#8 ++ v.extractLsb' 0 8 : BitVec 16) = v := by
  apply BitVec.eq_of_toNat_eq
  rw [BitVec.toNat_append]
  simp [h, Nat.mod_eq_of_lt]

end Sys2Proof

/-! PROOFS. The decoder reads back what the encoder writes, and writes no word that is not the encoder's (R60 to R70); words
written out, and the words that are no instruction (R64). -/

namespace Sys2Proof

/-- A frame to the device is read back: its start and stop cells pass the decoder's checks (R66). -/
theorem decode_encode_frameH2D (b : Byte) (p : Bool) : decode (encode (.frameH2D b p)) = .ok (.frameH2D b p) := by
  rw [encode_frameH2D]
  exact decodeFrameH2D_ok_iff.2 ⟨frameCells_lt .., frameCells_start .., frameCells_stop .., by
    simp only [plainWord, frameCells_data, frameCells_parity]⟩

theorem decode_encode_frameD2H (start : Bool) (b : Byte) (p stop : Bool) :
    decode (encode (.frameD2H start b p stop)) = .ok (.frameD2H start b p stop) := by
  rw [encode_frameD2H]
  exact decodeFrameD2H_ok_iff.2 ⟨frameCells_lt .., by
    simp only [plainWord, frameCells_data, frameCells_start, frameCells_parity, frameCells_stop]⟩

theorem decode_encode_reportStatus (status x y : Byte) :
    decode (encode (.reportStatus status x y)) = .ok (.reportStatus status x y) :=
  decodeReport_ok_iff.2 ⟨Laws.CodeFits.reportStatus status x y, by simp only [encode, plainWord, extractLsb'_reportCode]⟩

/-- The free bits of a reserved code are read back (R64). -/
theorem decode_encode_engReserved : ∀ low, decode (encode (.engReserved low)) = .ok (.engReserved low) := by decide

theorem decode_encode_busStateReserved24to31 :
    ∀ low, decode (encode (.busStateReserved24to31 low)) = .ok (.busStateReserved24to31 low) := by decide

theorem decode_encode_drvStateReserved24to31 :
    ∀ low, decode (encode (.drvStateReserved24to31 low)) = .ok (.drvStateReserved24to31 low) := by decide

/-- Settles O1, instruction by instruction: a row of a table is evaluated, and the operands that stand within a code are read
back by the lemmas above. -/
theorem decodeReadsBackEncode : Obligations.DecodeReadsBackEncode := by
  intro i
  cases i
  case frameH2D b p => exact decode_encode_frameH2D b p
  case frameD2H start b p stop => exact decode_encode_frameD2H start b p stop
  case reportStatus status x y => exact decode_encode_reportStatus status x y
  case engReserved low => exact decode_encode_engReserved low
  case busStateReserved24to31 low => exact decode_encode_busStateReserved24to31 low
  case drvStateReserved24to31 low => exact decode_encode_drvStateReserved24to31 low
  all_goals rfl

/-- A row of a table: the decoder's number for the instruction is the encoder's. -/
theorem code_eq_of_toNat {w : CodeWord} {i : Instr} (h : w.code.toNat = (encode i).code.toNat) :
    (encode i).code = w.code :=
  BitVec.eq_of_toNat_eq h.symm

theorem encode_of_decodeFrameH2D {w : CodeWord} {i : Instr} (h : decodeFrameH2D w = .ok i) :
    (encode i).format = .frameH2D ∧ (encode i).code = w.code := by
  obtain ⟨hlt, hstart, hstop, rfl⟩ := decodeFrameH2D_ok_iff.1 h
  have hcells := frameCells_of_lt hlt
  rw [hstart, hstop] at hcells
  rw [encode_frameH2D]
  exact ⟨rfl, hcells⟩

theorem encode_of_decodeFrameD2H {w : CodeWord} {i : Instr} (h : decodeFrameD2H w = .ok i) :
    (encode i).format = .frameD2H ∧ (encode i).code = w.code := by
  obtain ⟨hlt, rfl⟩ := decodeFrameD2H_ok_iff.1 h
  exact ⟨rfl, frameCells_of_lt hlt⟩

theorem encode_of_decodeReport {w : CodeWord} {i : Instr} (h : decodeReport w = .ok i) :
    (encode i).format = .report ∧ (encode i).code = w.code := by
  obtain ⟨hlt, rfl⟩ := decodeReport_ok_iff.1 h
  exact ⟨rfl, reportCode_of_lt hlt⟩

/-- Settles O2, by the format: a row of a table gives its own number, and a frame or a report is the cells read from it. -/
theorem decodedCodeIsTheEncodersCode : Obligations.DecodedCodeIsTheEncodersCode := by
  intro w i h
  cases hf : w.format <;> simp only [decode, hf] at h
  case frameH2D => exact encode_of_decodeFrameH2D h
  case frameD2H => exact encode_of_decodeFrameD2H h
  case report => exact encode_of_decodeReport h
  case engOp | drvOp | busState | drvState | cmdByte =>
    simp only [decodeEngOp, decodeDrvOp, decodeBusState, decodeDrvState, decodeCmdByte] at h
    split at h <;> cases h <;> exact ⟨rfl, code_eq_of_toNat ‹_›⟩

/-- Settles O3. -/
theorem wordsOfEachFormatDecode : Obligations.WordsOfEachFormatDecode :=
  ⟨rfl, rfl, rfl, rfl, rfl, rfl, rfl, rfl, rfl⟩

end Sys2Proof

namespace Sys2Proof.Machine

/-- Settles O5. -/
theorem reservedCodesAreRefused : Obligations.ReservedCodesAreRefused :=
  fun _ => ⟨fun _ => rfl, rfl, rfl, fun _ => rfl, rfl, fun _ => rfl⟩

/-- Settles O8: the step looks at the word before anything else. -/
theorem stepRefusesAWordThatIsNoInstruction : Obligations.StepRefusesAWordThatIsNoInstruction := by
  intro s c rest e hcalls hword
  unfold step
  rw [hcalls]
  dsimp only
  rw [hword]

end Sys2Proof.Machine

/-! PROOFS. A request from outside, by who operates the engine and what it is doing (R102, R103, R106, R107); the command
bytes (R68), and the frames that are no operation or begin with their request (R66, R72). -/

namespace Sys2Proof.Machine

/-- A request from outside reaches the engine only while no driver is attached (R253). -/
theorem byCaller_of_unattached {s : State} (act : State → Answer) (h : s.drv.dstate = .dUninit) :
    byCaller s act = act s :=
  if_pos h

theorem byCaller_of_attached {s : State} (act : State → Answer) (h : s.drv.dstate ≠ .dUninit) :
    byCaller s act = .refused .engineOwnedByDriver :=
  if_neg h

theorem requestWrite_of_unbound {s : State} (b : Byte) (h : s.eng.bstate = .bUninit) : requestWrite b s = .next s :=
  if_pos h

theorem requestRead_of_unbound {s : State} (h : s.eng.bstate = .bUninit) : requestRead s = .next s :=
  if_pos h

theorem requestWrite_of_busy {s : State} (b : Byte) (hbound : s.eng.bstate ≠ .bUninit) (hbusy : s.eng.busy = true) :
    requestWrite b s = .refused .requestWhileBusy :=
  (if_neg hbound).trans (if_pos hbusy)

theorem requestRead_of_busy {s : State} (hbound : s.eng.bstate ≠ .bUninit) (hbusy : s.eng.busy = true) :
    requestRead s = .refused .requestWhileBusy :=
  (if_neg hbound).trans (if_pos hbusy)

theorem requestWrite_of_free {s : State} (b : Byte) (hbound : s.eng.bstate ≠ .bUninit) (hfree : s.eng.busy = false) :
    requestWrite b s = .next { s with eng := queued .write b s.eng } :=
  (if_neg hbound).trans (if_neg (by simp [hfree]))

/-- At its place the byte's row is the row of the transition that writes it (R68). -/
theorem commandByte_at_place {b : Byte} {place : DrvState} {rule : State → Answer} {s : State}
    (h : s.drv.dstate = place) : commandByte b place rule s = whenDrv place rule s :=
  (if_pos h).trans (if_pos h).symm

theorem commandByte_elsewhere {b : Byte} {place : DrvState} {rule : State → Answer} {s : State}
    (h : s.drv.dstate ≠ place) : commandByte b place rule s = byCaller s (requestWrite b) :=
  if_neg h

/-- 0xEB has two places (R179, R197). -/
theorem execCmdRequestData_at_settle {s : State} (h : s.drv.dstate = .dInitSettle) :
    execCmdRequestData s = execDInitSettle s :=
  (if_pos h).trans (if_pos h).symm

theorem execCmdRequestData_of_ne {s : State} (h : s.drv.dstate ≠ .dInitSettle) :
    execCmdRequestData s = commandByte byteRequestData .dPollWait ruleDPollWait s :=
  if_neg h

/-- Settles O53: at its place the byte's row and the transition's are guarded by the same tag, with the same rule. -/
theorem commandByteAtItsPlaceIsWrittenByTheDriver : Obligations.CommandByteAtItsPlaceIsWrittenByTheDriver := by
  intro row hrow s h
  simp only [List.mem_cons, List.not_mem_nil, or_false] at hrow
  rcases hrow with rfl | rfl | rfl | rfl | rfl | rfl | rfl | rfl
  case inr.inr.inr.inr.inr.inr.inl => exact execCmdRequestData_at_settle h
  case inr.inr.inr.inr.inr.inr.inr =>
    exact (execCmdRequestData_of_ne (by simp [h])).trans (commandByte_at_place h)
  all_goals exact commandByte_at_place h

/-- The seven bytes with their values and their places in the driver's sequence (R68). -/
def commandBytes : List (Instr × Byte × List DrvState) :=
  [(.cmdReset, 0xFF#8, [.dAttachSettle]), (.cmdRemoteMode, 0xF0#8, [.dResetB2]), (.cmdSetRate, 0xF3#8, [.dRemoteAck]),
    (.argRate200, 0xC8#8, [.dRateCmdAck]), (.cmdSetResolution, 0xE8#8, [.dRateValAck]),
    (.argResolution3, 0x03#8, [.dResCmdAck]), (.cmdRequestData, 0xEB#8, [.dInitSettle, .dPollWait])]

/-- Away from its places a command byte is the request of its value. -/
theorem exec_commandByte_elsewhere {i : Instr} {b : Byte} {places : List DrvState}
    (hrow : (i, b, places) ∈ commandBytes) {s : State} (h : s.drv.dstate ∉ places) :
    exec i s = byCaller s (requestWrite b) := by
  simp only [commandBytes, List.mem_cons, List.not_mem_nil, or_false, Prod.mk.injEq] at hrow
  rcases hrow with ⟨rfl, rfl, rfl⟩ | ⟨rfl, rfl, rfl⟩ | ⟨rfl, rfl, rfl⟩ | ⟨rfl, rfl, rfl⟩ | ⟨rfl, rfl, rfl⟩ |
    ⟨rfl, rfl, rfl⟩ | ⟨rfl, rfl, rfl⟩
  case inr.inr.inr.inr.inr.inr =>
    rw [List.mem_pair, not_or] at h
    exact (execCmdRequestData_of_ne h.1).trans (commandByte_elsewhere h.2)
  all_goals exact commandByte_elsewhere (List.ne_of_not_mem_cons h)

/-- No byte is written from `D_UNINIT`. -/
theorem dUninit_not_place : ∀ row ∈ commandBytes, DrvState.dUninit ∉ row.2.2 := by decide

/-- Settles O54: away from its places a byte is `REQW`, with the cases of `REQW`. -/
theorem commandByteOutOfTheSequenceIsItsRequest : Obligations.CommandByteOutOfTheSequenceIsItsRequest := by
  intro ⟨i, b, places⟩ hrow s
  have hcaller : s.drv.dstate = .dUninit → exec i s = requestWrite b s := fun hd =>
    (exec_commandByte_elsewhere hrow (hd ▸ dUninit_not_place _ hrow)).trans (byCaller_of_unattached _ hd)
  refine ⟨fun hd hbound hfree => ?_, fun hd hbound hbusy => ?_, fun hd hu => ?_, fun hd hplace => ?_⟩
  · exact (hcaller hd).trans (requestWrite_of_free b hbound hfree)
  · exact (hcaller hd).trans (requestWrite_of_busy b hbound hbusy)
  · exact (hcaller hd).trans (requestWrite_of_unbound b hu)
  · exact (exec_commandByte_elsewhere hrow hplace).trans (byCaller_of_attached _ hd)

theorem writeQueued_iff {b : Byte} {s : State} :
    writeQueued b s = true ↔ s.eng.bstate = .bIdle ∧ s.eng.busy = true ∧ s.eng.op = .write ∧ s.eng.sh = b := by
  simp only [writeQueued, Bool.and_eq_true, decide_eq_true_eq]
  tauto

theorem frameAwaited_iff {s : State} :
    frameAwaited s = true ↔
      (s.eng.bstate = .bIdle ∨ s.eng.bstate = .rFreeDelay ∨ s.eng.bstate = .rStartLow) ∧ s.eng.busy = true ∧
        s.eng.op = .read := by
  simp only [frameAwaited, Bool.and_eq_true, Bool.or_eq_true, decide_eq_true_eq]
  tauto

/-- A frame to the device whose write is not queued begins with its request (R72). -/
theorem exec_frameH2D_requests {b : Byte} {s : State} (h : writeQueued b s ≠ true) :
    exec (.frameH2D b (parityOfByte b)) s =
      andThen (byCaller s (requestWrite b)) fun u => .next (runPhases writePhases u) :=
  (if_pos rfl).trans (if_neg h)

/-- A frame from the device under no read that awaits it begins with its request (R72). -/
theorem exec_frameD2H_requests {start p stop : Bool} {b : Byte} {s : State} (h : frameAwaited s ≠ true) :
    exec (.frameD2H start b p stop) s =
      andThen (byCaller s requestRead) fun u =>
        .next (setResult (.byte (runPhases (readPhases start b p stop) u).eng.rx)
          (runPhases (readPhases start b p stop) u)) := by
  simp only [exec, execFrameD2H, if_neg h]

/-- With no line bound nothing but the sample changes, however many steps are run (R110). -/
theorem runPhases_of_unbound (ps : List Phase) {s : State} (h : s.eng.bstate = .bUninit) :
    ∃ e, runPhases ps s = { s with env := e } := by
  induction ps generalizing s with
  | nil => exact ⟨s.env, rfl⟩
  | cons p rest ih =>
    rw [runPhases_cons, engineStep_of_unbound (s := samplePhase p s) h]
    obtain ⟨e, he⟩ := ih (s := samplePhase p s) h
    exact ⟨e, he⟩

/-- What follows a request from outside does not run where the request is refused. -/
theorem andThen_byCaller_refused {s : State} {act : State → Answer} (f : State → Answer)
    (hact : s.eng.bstate ≠ .bUninit → s.eng.busy = true → act s = .refused .requestWhileBusy) :
    (s.drv.dstate ≠ .dUninit → andThen (byCaller s act) f = .refused .engineOwnedByDriver) ∧
    (s.drv.dstate = .dUninit → s.eng.bstate ≠ .bUninit → s.eng.busy = true →
      andThen (byCaller s act) f = .refused .requestWhileBusy) := by
  refine ⟨fun hd => ?_, fun hd hbound hbusy => ?_⟩
  · rw [byCaller_of_attached act hd]
    rfl
  · rw [byCaller_of_unattached act hd, hact hbound hbusy]
    rfl

/-- Settles O57: a frame whose operation is not under way is its request and then the steps; those change nothing while no
line is bound. -/
theorem frameThatCannotBeginIsRefused : Obligations.FrameThatCannotBeginIsRefused := by
  intro s start b p stop
  refine ⟨if_neg (by simp), fun hn => ?_, fun hn => ?_, fun hd hu => ⟨?_, ?_⟩⟩
  · rw [exec_frameH2D_requests (writeQueued_iff.not.2 hn)]
    exact andThen_byCaller_refused _ (requestWrite_of_busy b)
  · rw [exec_frameD2H_requests (frameAwaited_iff.not.2 hn)]
    exact andThen_byCaller_refused _ requestRead_of_busy
  · obtain ⟨e, he⟩ := runPhases_of_unbound writePhases hu
    have hn : writeQueued b s ≠ true := writeQueued_iff.not.2 (by simp [hu])
    rw [exec_frameH2D_requests hn, byCaller_of_unattached _ hd, requestWrite_of_unbound b hu, andThen_next, he]
    exact ⟨e, rfl⟩
  · obtain ⟨e, he⟩ := runPhases_of_unbound (readPhases start b p stop) hu
    have hn : frameAwaited s ≠ true := frameAwaited_iff.not.2 (by simp [hu])
    rw [exec_frameD2H_requests hn, byCaller_of_unattached _ hd, requestRead_of_unbound hu, andThen_next, he]
    exact ⟨e, rfl⟩

end Sys2Proof.Machine

/-! PROOFS. A report as the driver takes it: one frame under the read it waits for, then the transition that takes the byte
(R150, R192 to R194); the nine-bit deltas (R71); and the statement on the whole report (R70). -/

namespace Sys2Proof.Machine

/-- A delta is the two's-complement value of its sign bit before its byte (R71). -/
theorem signedDelta_eq_toInt (sign : Bool) (raw : Byte) :
    signedDelta sign raw = (BitVec.ofBool sign ++ raw).toInt := by
  have hval : (BitVec.ofBool sign ++ raw).toInt = 2 ^ 8 * (BitVec.ofBool sign).toInt + raw.toNat :=
    BitVec.toInt_append
  rw [hval, signedDelta]
  cases sign with
  | false => simp
  | true => simp [sub_eq_neg_add]

theorem signedDelta_bounds (sign : Bool) (raw : Byte) : -256 ≤ signedDelta sign raw ∧ signedDelta sign raw ≤ 255 := by
  have hraw := raw.isLt
  cases sign <;> simp only [signedDelta] <;> omega

/-- A coordinate moved by a delta: the move is the nine-bit value, between -256 and 255. -/
theorem moved_by_signedDelta (sign : Bool) (raw : Byte) (p : Int) :
    p + signedDelta sign raw - p = (BitVec.ofBool sign ++ raw).toInt ∧ -256 ≤ p + signedDelta sign raw - p ∧
      p + signedDelta sign raw - p ≤ 255 := by
  rw [add_sub_cancel_left]
  exact ⟨signedDelta_eq_toInt sign raw, signedDelta_bounds sign raw⟩

/-- A read on two different lines that the device's frame can carry out: queued, or before its start bit with both lines
released (R140, R141). -/
structure AwaitsFrame (c d : LineId) (s : State) : Prop where
  clock : s.eng.clockLine = some c
  data : s.eng.dataLine = some d
  different : c ≠ d
  busy : s.eng.busy = true
  reading : s.eng.op = .read
  before : s.eng.bstate = .bIdle ∨ (s.eng.bstate = .rFreeDelay ∨ s.eng.bstate = .rStartLow) ∧
    modeOf s.modes c = some .released ∧ modeOf s.modes d = some .released

/-- The lines after an operation: the device held off by the clock, the data line released, no other line moved. -/
structure HeldOff (c d : LineId) (ms ms' : List (LineId × DriveMode)) : Prop where
  clock : modeOf ms' c = some .assertedLow
  data : modeOf ms' d = some .released
  other : ∀ l, l ≠ c → l ≠ d → modeOf ms' l = modeOf ms l

theorem heldOff_of_dispatched {c d : LineId} (hcd : c ≠ d) (ms : List (LineId × DriveMode)) :
    HeldOff c d ms (setMode (setMode (setMode ms c .released) d .released) c .assertedLow) where
  clock := modeOf_setMode_same _ c _
  data := by rw [modeOf_setMode_other _ _ hcd.symm, modeOf_setMode_same]
  other l hc hd := by rw [modeOf_setMode_other _ _ hc, modeOf_setMode_other _ _ hd, modeOf_setMode_other _ _ hc]

theorem heldOff_of_released {c d : LineId} (hcd : c ≠ d) {ms : List (LineId × DriveMode)}
    (hd : modeOf ms d = some .released) : HeldOff c d ms (setMode ms c .assertedLow) where
  clock := modeOf_setMode_same ms c _
  data := (modeOf_setMode_other ms _ hcd.symm).trans hd
  other _ hc _ := modeOf_setMode_other ms _ hc

/-- The state after a completed read of `b` (R149, R150): the sample `e`, the timestamp `t` and the drive modes `ms` are
those of the frame's end. -/
def afterRead (b : Byte) (e : Sample) (t : Micros) (ms : List (LineId × DriveMode)) (s : State) : State :=
  { s with
    env := e
    eng := { s.eng with t := t, rx := b, cnt := 0#3, busy := false, bstate := .bIdle }
    modes := ms }

/-- The frame of a report byte completes the read, then the driver's transition is evaluated. -/
theorem runAdvances_reportFrame_awaited (b : Byte) {c d : LineId} {s : State} (h : AwaitsFrame c d s)
    (hdrv : awaitsRead s.drv.dstate = true) :
    ∃ e t ms, HeldOff c d s.modes ms ∧ runAdvances (reportFrame b) s = driverStep (afterRead b e t ms s) := by
  obtain ⟨hc, hd, hcd, hb, ho, hq | ⟨hq, hmc, hmd⟩⟩ := h
  · exact ⟨_, _, _, heldOff_of_dispatched hcd s.modes, runAdvances_reportFrame b hdrv hq hb ho hc hd hcd⟩
  · have hfree : LinesFree s :=
      ⟨by simpa [hc, hd] using hcd, by simp [hc, modeAt, hmc], by simp [hd, modeAt, hmd]⟩
    have hrun := runAdvances_reportFrame_waiting b hdrv hq hb ho hfree
    rw [hc] at hrun
    exact ⟨_, _, _, heldOff_of_released hcd hmd, hrun⟩

/-- The next read is queued in the state `q`: `op` is written with the value it has. -/
theorem issueRead_afterRead {q : DrvState} {b : Byte} {e : Sample} {t : Micros} {ms : List (LineId × DriveMode)}
    {s : State} (ho : s.eng.op = .read) :
    issueRead q (afterRead b e t ms s) = .next (setDstate q (setBusy true (afterRead b e t ms s))) := by
  rw [issueRead_idle (by simp [afterRead]) rfl]
  simp [setOp, afterRead, setBusy, setDstate, ho]

/-- The status byte taken and the next read queued (R192). -/
def statusTaken (b : Byte) (e : Sample) (t : Micros) (ms : List (LineId × DriveMode)) (s : State) : State :=
  setDstate .dPollX (setBusy true (afterRead b e t ms (setStatus b s)))

/-- The X byte taken and the next read queued (R193). -/
def rawxTaken (b : Byte) (e : Sample) (t : Micros) (ms : List (LineId × DriveMode)) (s : State) : State :=
  setDstate .dPollY (setBusy true (afterRead b e t ms (setRawx b s)))

/-- The Y byte taken and the report decoded (R194, R196). -/
def rawyTaken (b : Byte) (e : Sample) (t : Micros) (ms : List (LineId × DriveMode)) (s : State) : State :=
  setDstate .dPollWait (stampDriver (decodeReportHeld (setRawy b (afterRead b e t ms s))))

/-- Under the next read the same lines await the next frame. -/
theorem AwaitsFrame.statusTaken {c d : LineId} {s : State} (h : AwaitsFrame c d s) (b : Byte) (e : Sample) (t : Micros)
    (ms : List (LineId × DriveMode)) : AwaitsFrame c d (statusTaken b e t ms s) :=
  ⟨h.clock, h.data, h.different, rfl, h.reading, .inl rfl⟩

theorem AwaitsFrame.rawxTaken {c d : LineId} {s : State} (h : AwaitsFrame c d s) (b : Byte) (e : Sample) (t : Micros)
    (ms : List (LineId × DriveMode)) : AwaitsFrame c d (rawxTaken b e t ms s) :=
  ⟨h.clock, h.data, h.different, rfl, h.reading, .inl rfl⟩

/-- R192, on the read of the status byte. -/
theorem driverStep_takes_status {b : Byte} {e : Sample} {t : Micros} {ms : List (LineId × DriveMode)} {s : State}
    (hdrv : s.drv.dstate = .dPollStatus) (ho : s.eng.op = .read) :
    driverStep (afterRead b e t ms s) = .next (statusTaken b e t ms s) := by
  have hrule : driverStep (afterRead b e t ms s) = ruleDPollStatus (afterRead b e t ms s) := by
    simp only [driverStep, afterRead, hdrv]
  exact hrule.trans (issueRead_afterRead (s := setStatus b s) ho)

/-- R193, on the read of the X byte. -/
theorem driverStep_takes_rawx {b : Byte} {e : Sample} {t : Micros} {ms : List (LineId × DriveMode)} {s : State}
    (hdrv : s.drv.dstate = .dPollX) (ho : s.eng.op = .read) :
    driverStep (afterRead b e t ms s) = .next (rawxTaken b e t ms s) := by
  have hrule : driverStep (afterRead b e t ms s) = ruleDPollX (afterRead b e t ms s) := by
    simp only [driverStep, afterRead, hdrv]
  exact hrule.trans (issueRead_afterRead (s := setRawx b s) ho)

/-- R194, on the read of the Y byte: no request. -/
theorem driverStep_takes_rawy {b : Byte} {e : Sample} {t : Micros} {ms : List (LineId × DriveMode)} {s : State}
    (hdrv : s.drv.dstate = .dPollY) :
    driverStep (afterRead b e t ms s) = .next (rawyTaken b e t ms s) := by
  have hrule : driverStep (afterRead b e t ms s) = ruleDPollY (afterRead b e t ms s) := by
    simp only [driverStep, afterRead, hdrv]
  exact hrule

theorem reportFrame_length (b : Byte) : (reportFrame b).length = 25 := rfl

/-- The last phase of a report is the last of its third frame. -/
theorem reportPhases_last {status x y : Byte} {ps : List Phase} {last : Phase}
    (h : reportPhases status x y = ps ++ [last]) :
    ∃ qs, ps = reportFrame status ++ reportFrame x ++ qs ∧ reportFrame y = qs ++ [last] := by
  have hne : reportFrame y ≠ [] := List.ne_nil_of_length_pos (by simp [reportFrame_length])
  have hlast := List.dropLast_append_getLast hne
  rw [reportPhases, ← hlast, ← List.append_assoc] at h
  obtain ⟨hps, hl⟩ := List.append_inj' h rfl
  exact ⟨_, hps.symm, by rw [← hl, hlast]⟩

/-- All phases of a frame but the last move the engine only; the last is one `ADVANCE`. -/
theorem reportFrame_split {b : Byte} {qs : List Phase} {last : Phase} {s : State} {c d : LineId}
    (hframe : reportFrame b = qs ++ [last]) (hdrv : awaitsRead s.drv.dstate = true) (h : AwaitsFrame c d s)
    (hq : s.eng.bstate = .bIdle) :
    runAdvances qs s = .next (runPhases qs s) ∧
      execAdvance (samplePhase last (runPhases qs s)) = runAdvances (reportFrame b) s := by
  have hlen : qs.length = 24 := by simpa [reportFrame_length] using (congrArg List.length hframe).symm
  have hprogress : readProgress s.eng + qs.length ≤ 24 := by simp [readProgress, hq, hlen]
  refine ⟨runAdvances_of_busy hdrv fun n hn => runPhases_readProgress h.busy h.reading ?_, ?_⟩
  · simp only [List.length_take]
    omega
  · rw [hframe, runAdvances_read_last hdrv h.busy h.reading hprogress]

theorem exec_reportStatus_of_not_awaited {status x y : Byte} {s : State} (h : reportAwaited s ≠ true) :
    exec (.reportStatus status x y) s = .next s :=
  if_neg h

theorem exec_reportStatus_of_awaited {status x y : Byte} {s : State} (h : reportAwaited s = true) :
    exec (.reportStatus status x y) s = runAdvances (reportPhases status x y) s :=
  if_pos h

/-- Settles O52: the three frames one after the other, each with the driver's transition that takes its byte; the last
`ADVANCE` of the third is the one that decodes. -/
theorem reportDecodesNineBitDeltas : Obligations.ReportDecodesNineBitDeltas := by
  refine fun status x y s => ⟨fun c d hdrv hc hd hcd hb ho hq => ?_, fun hn =>
    exec_reportStatus_of_not_awaited (reportAwaited_iff.not.2 hn)⟩
  have hawaited : reportAwaited s = true := reportAwaited_iff.2 ⟨hdrv, hb, ho, hq.imp_right And.left⟩
  have h₀ : AwaitsFrame c d s := ⟨hc, hd, hcd, hb, ho, hq⟩
  obtain ⟨e₁, t₁, ms₁, hheld₁, hrun₁⟩ := runAdvances_reportFrame_awaited status h₀ (by rw [hdrv]; rfl)
  have h₁ := h₀.statusTaken status e₁ t₁ ms₁
  obtain ⟨e₂, t₂, ms₂, hheld₂, hrun₂⟩ := runAdvances_reportFrame_awaited x h₁ rfl
  have h₂ := h₁.rawxTaken x e₂ t₂ ms₂
  obtain ⟨e₃, t₃, ms₃, hheld₃, hrun₃⟩ := runAdvances_reportFrame_awaited y h₂ rfl
  have hrun₁₂ := runAdvances_append (reportFrame status) (reportFrame x) s
  rw [hrun₁, driverStep_takes_status hdrv ho, andThen_next, hrun₂,
    driverStep_takes_rawx (by rfl) (by exact ho)] at hrun₁₂
  replace hrun₃ := hrun₃.trans (driverStep_takes_rawy rfl)
  obtain ⟨hx, hxlo, hxhi⟩ := moved_by_signedDelta (status.getLsbD 4) x s.drv.posx
  obtain ⟨hy, hylo, hyhi⟩ := moved_by_signedDelta (status.getLsbD 5) y s.drv.posy
  refine ⟨rawyTaken y e₃ t₃ ms₃ (rawxTaken x e₂ t₂ ms₂ (statusTaken status e₁ t₁ ms₁ s)), ?_, rfl, hx, hy, hxlo, hxhi,
    hylo, hyhi, hheld₃.clock, hheld₃.data, fun l hlc hld => ?_, fun ps last hps => ?_⟩
  · rw [exec_reportStatus_of_awaited hawaited, reportPhases, runAdvances_append, hrun₁₂, andThen_next, hrun₃]
  · calc modeOf ms₃ l = modeOf ms₂ l := hheld₃.other l hlc hld
      _ = modeOf ms₁ l := hheld₂.other l hlc hld
      _ = modeOf s.modes l := hheld₁.other l hlc hld
  · obtain ⟨qs, rfl, hframe⟩ := reportPhases_last hps
    obtain ⟨hqs, hlast⟩ := reportFrame_split hframe rfl h₂ rfl
    refine ⟨_, ?_, (runPhases_outside qs _).1, hlast.trans hrun₃⟩
    rw [runAdvances_append, hrun₁₂, andThen_next, hqs]

end Sys2Proof.Machine

/-! PROOFS. The timing flag as arithmetic on naturals (R90), and a bit driven on the data line as it is sampled (R92, R93). -/

namespace Sys2Proof.Machine

theorem elapsed_iff {interval since now : Micros} :
    elapsed interval since now = true ↔ interval.toNat < (now - since).toNat :=
  decide_eq_true_iff

/-- The counter's difference wraps at 2^32 (R90). -/
theorem micros_toNat_sub (now since : Micros) :
    (now - since).toNat = (now.toNat + 2 ^ 32 - since.toNat) % 2 ^ 32 := by
  rw [BitVec.toNat_sub', Nat.add_sub_assoc since.isLt.le now.toNat]

/-- Settles O13: the flag compares the counter's difference, which wraps. -/
theorem elapsedIsStrictModuloTheCounter : Obligations.ElapsedIsStrictModuloTheCounter := by
  intro interval since now
  rw [elapsed_iff, micros_toNat_sub]

theorem modeAt_driveData {s : State} {l : LineId} (v : Bool) (h : s.eng.dataLine = some l) :
    modeAt (driveData v s).modes (some l) = some (modeOfBit v) := by
  rw [driveData_modes, h, modeAt_setModeAt_same]

/-- The wired-AND read as bits: a line that carries the mode of a bit gives it back unless the device pulls (R44, R92,
R93). -/
theorem bitOfLevel_levelOf_of_modeOfBit {ms : List (LineId × DriveMode)} {l : LineRef} {v : Bool}
    (h : modeAt ms l = some (modeOfBit v)) (pulled : Bool) : bitOfLevel (levelOf ms l pulled) = (v && !pulled) := by
  cases v with
  | false => rw [levelOf_of_assertedLow h]; rfl
  | true => rw [levelOf_of_released h]; cases pulled <;> rfl

/-- Settles O15: the data line carries the mode of the bit, and the level read as a bit is the wired-AND. -/
theorem drivenBitIsTheSampledBit : Obligations.DrivenBitIsTheSampledBit := by
  intro s l v hl
  have hread := bitOfLevel_levelOf_of_modeOfBit (modeAt_driveData v hl)
  exact ⟨(hread false).trans (Bool.and_true v), (hread true).trans (Bool.and_false v)⟩

end Sys2Proof.Machine

/-! PROOFS. The rows of the two state tables: each evaluates the rule that `STEP` or `ADVANCE` selects, and only under its
own tag (R108, R161). -/

namespace Sys2Proof.Machine

theorem whenBus_of_selected {q : BusState} {s : State} (rule : State → State) (h : s.eng.bstate = q) :
    whenBus q rule s = .next (rule s) :=
  congrArg _ (if_pos h)

theorem whenBus_of_unselected {q : BusState} {s : State} (rule : State → State) (h : s.eng.bstate ≠ q) :
    whenBus q rule s = .next s :=
  congrArg _ (if_neg h)

theorem whenDrv_of_unselected {q : DrvState} {s : State} (rule : State → Answer) (h : s.drv.dstate ≠ q) :
    whenDrv q rule s = .next s :=
  if_neg h

/-- A rule matters only under the tag that selects it. -/
theorem whenBus_congr {q : BusState} {rule rule' : State → State} {s : State}
    (h : s.eng.bstate = q → rule s = rule' s) : whenBus q rule s = whenBus q rule' s :=
  congrArg _ (ite_congr rfl h fun _ => rfl)

theorem whenDrv_congr {q : DrvState} {rule rule' : State → Answer} {s : State}
    (h : s.drv.dstate = q → rule s = rule' s) : whenDrv q rule s = whenDrv q rule' s :=
  ite_congr rfl h fun _ => rfl

/-- Each row of `bstate` is the engine's step, gated by its own tag (R63, R108). -/
theorem exec_busTransition (q : BusState) (s : State) : exec q.transition s = whenBus q engineStep s := by
  cases q <;> exact whenBus_congr fun hq => by simp only [engineStep, hq]

/-- Each row of `dstate` is the driver half of `ADVANCE`, gated by its own tag (R63, R161). -/
theorem exec_drvTransition (q : DrvState) (s : State) : exec q.transition s = whenDrv q driverStep s := by
  cases q <;> exact whenDrv_congr fun hq => by simp only [driverStep, hq]

/-- The row of the present state is one `STEP` of the engine (R108). -/
theorem exec_busTransition_of_selected {q : BusState} {s : State} (h : s.eng.bstate = q) :
    exec q.transition s = .next (engineStep s) :=
  (exec_busTransition q s).trans (whenBus_of_selected engineStep h)

/-- `STEP` from outside (R108). -/
theorem exec_step_of_unattached {s : State} (h : s.drv.dstate = .dUninit) : exec .step s = .next (engineStep s) :=
  byCaller_of_unattached (fun u => .next (engineStep u)) h

/-- Settles O24: both answer the engine's step. -/
theorem stepOperationEvaluatesTheSelectedRule : Obligations.StepOperationEvaluatesTheSelectedRule :=
  fun s hd => ⟨engineStep s, exec_step_of_unattached hd, exec_busTransition_of_selected rfl⟩

/-- Settles O26: the gate of each row compares the tag. -/
theorem unselectedTransitionChangesNothing : Obligations.UnselectedTransitionChangesNothing :=
  ⟨fun q s h => (exec_busTransition q s).trans (whenBus_of_unselected engineStep h),
    fun q s h => (exec_drvTransition q s).trans (whenDrv_of_unselected driverStep h)⟩

end Sys2Proof.Machine

/-! PROOFS. The operations of the engine from outside while no driver is attached (R100 to R107), and its transitions in
`B_UNINIT` and `B_IDLE` (R109, R110). -/

namespace Sys2Proof.Machine

/-- `ASSIGN` from outside (R100). -/
theorem exec_assign_of_unattached {s : State} (c d : LineRef) (h : s.drv.dstate = .dUninit) :
    exec (.assign c d) s = .next (assignLines c d s) :=
  byCaller_of_unattached (fun u => .next (assignLines c d u)) h

/-- Settles O17, by whether the pair can be bound. -/
theorem assignRestartsTheEngine : Obligations.AssignRestartsTheEngine := by
  intro s c d hd
  rw [exec_assign_of_unattached c d hd]
  rcases assignLines_cases c d s with ⟨hv, e⟩ | ⟨hv, e⟩ <;> rw [e]
  · exact ⟨fun _ => rfl, fun hn => by simp [hv] at hn⟩
  · exact ⟨fun hp => by simp [hv] at hp, fun _ => rfl⟩

/-- `REQW` from outside (R102). -/
theorem exec_reqw_of_unattached {s : State} (b : Byte) (h : s.drv.dstate = .dUninit) :
    exec (.reqw b) s = requestWrite b s :=
  byCaller_of_unattached (requestWrite b) h

/-- `REQR` from outside (R103). -/
theorem exec_reqr_of_unattached {s : State} (h : s.drv.dstate = .dUninit) : exec .reqr s = requestRead s :=
  byCaller_of_unattached requestRead h

/-- A read leaves `sh` (R103). -/
theorem requestRead_of_free {s : State} (hbound : s.eng.bstate ≠ .bUninit) (hfree : s.eng.busy = false) :
    requestRead s = .next { s with eng := queued .read s.eng.sh s.eng } :=
  (if_neg hbound).trans (if_neg (by simp [hfree]))

/-- Settles O18. -/
theorem requestWriteLatchesAndQueues : Obligations.RequestWriteLatchesAndQueues :=
  fun _ b hd hbound hfree => (exec_reqw_of_unattached b hd).trans (requestWrite_of_free b hbound hfree)

/-- Settles O19. -/
theorem requestReadQueues : Obligations.RequestReadQueues :=
  fun _ hd hbound hfree => (exec_reqr_of_unattached hd).trans (requestRead_of_free hbound hfree)

/-- Settles O20. -/
theorem requestWhileBusyIsRefused : Obligations.RequestWhileBusyIsRefused :=
  fun _ b hd hbound hbusy =>
    ⟨(exec_reqw_of_unattached b hd).trans (requestWrite_of_busy b hbound hbusy),
      (exec_reqr_of_unattached hd).trans (requestRead_of_busy hbound hbusy)⟩

/-- Settles O22. -/
theorem isBusyReturnsBusy : Obligations.IsBusyReturnsBusy :=
  fun _ => rfl

/-- Settles O23. -/
theorem takeReturnsTheReceiveByte : Obligations.TakeReturnsTheReceiveByte :=
  fun _ => rfl

/-- Settles O21: while no line is bound both requests and the step answer the same state, and the invariant gives
`busy` = 0 (R22 (a)). -/
theorem unboundEngineDoesNothing : Obligations.UnboundEngineDoesNothing := by
  intro s b hinv hd hu
  obtain ⟨hfree, -, -⟩ := hinv.unbound hu
  refine ⟨?_, ?_, ?_, ?_, takeReturnsTheReceiveByte s⟩
  · rw [exec_reqw_of_unattached b hd, requestWrite_of_unbound b hu]
  · rw [exec_reqr_of_unattached hd, requestRead_of_unbound hu]
  · rw [exec_step_of_unattached hd, engineStep_of_unbound hu]
  · rw [isBusyReturnsBusy, hfree]

/-- Settles O27. -/
theorem uninitTransitionDoesNothing : Obligations.UninitTransitionDoesNothing := by
  intro s hu
  calc exec .bUninit s = .next (engineStep s) := exec_busTransition_of_selected hu
    _ = .next s := by rw [engineStep_of_unbound hu]

/-- The dispatch of a write (R109). -/
theorem engineStep_of_write_queued {s : State} (hq : s.eng.bstate = .bIdle) (hb : s.eng.busy = true)
    (ho : s.eng.op = .write) :
    engineStep s = setBstate .wSettle (setPar false (setCnt 0#3
      (stampEngine (release s.eng.dataLine (release s.eng.clockLine s))))) := by
  simp only [engineStep, hq, ruleBIdle, if_pos hb, ho]

/-- The dispatch of a read: `cnt` and `par` are left (R109). -/
theorem engineStep_of_read_queued {s : State} (hq : s.eng.bstate = .bIdle) (hb : s.eng.busy = true)
    (ho : s.eng.op = .read) :
    engineStep s = setBstate .rFreeDelay (stampEngine (release s.eng.dataLine (release s.eng.clockLine s))) := by
  simp only [engineStep, hq, ruleBIdle, if_pos hb, ho]

/-- Settles O28, by what is queued. -/
theorem idleDispatchesTheQueuedRequest : Obligations.IdleDispatchesTheQueuedRequest := by
  intro s hq
  have hstep : exec .bIdle s = .next (engineStep s) := exec_busTransition_of_selected hq
  refine ⟨fun hb ho => ?_, fun hb ho => ?_, fun hf => ?_⟩
  · exact hstep.trans (congrArg _ (engineStep_of_write_queued hq hb ho))
  · exact hstep.trans (congrArg _ (engineStep_of_read_queued hq hb ho))
  · exact hstep.trans (congrArg _ (engineStep_of_idle_free hq hf))

end Sys2Proof.Machine

/-! PROOFS. The write protocol: each wait as the guarded rule of its row (R111, R120 to R130), and the frame to the device
as the whole of a queued write (R131). -/

namespace Sys2Proof.Machine

/-- The row of a wait under its own tag: the rule changes nothing until its guard holds (R111). The guard `g` of the rule
may be stated as any `g'` equivalent to it. -/
theorem whenBus_of_wait {q : BusState} {s t : State} {g g' : Prop} [Decidable g] [Decidable g'] (rule : State → State)
    (hq : s.eng.bstate = q) (hrule : rule s = if g then t else s) (hg : g ↔ g') :
    whenBus q rule s = .next (if g' then t else s) := by
  rw [whenBus_of_selected rule hq, hrule]
  exact congrArg _ (if_congr hg rfl rfl)

/-- Settles O29: the guard of each of the four is the elapsed window (R90). -/
theorem timedWindowsOfAWrite : Obligations.TimedWindowsOfAWrite :=
  fun _ =>
    ⟨fun hq => whenBus_of_wait ruleWSettle hq rfl elapsed_iff,
      fun hq => whenBus_of_wait ruleWInhibit hq rfl elapsed_iff,
      fun hq => whenBus_of_wait ruleWStart hq rfl elapsed_iff,
      fun hq => whenBus_of_wait ruleWStopDelay hq rfl elapsed_iff⟩

/-- Settles O30: the guard is the clock low, as the pulls and the drive mode give it (R44). -/
theorem deviceTakesOverClocking : Obligations.DeviceTakesOverClocking :=
  fun _ hq => whenBus_of_wait ruleWDevClk hq rfl clkLevel_low

/-- Settles O31: each guard is a level of the clock line alone. -/
theorem clockWaitsOfAWrite : Obligations.ClockWaitsOfAWrite :=
  fun _ =>
    ⟨fun hq => whenBus_of_wait ruleWBitRise hq rfl clkLevel_high,
      fun hq => whenBus_of_wait ruleWParRise hq rfl clkLevel_high,
      fun hq => whenBus_of_wait ruleWStopClkLow hq rfl clkLevel_low⟩

/-- The bit on the line after the shift (R95). -/
theorem takeBitOff_next_bit (s : State) : (takeBitOff s).eng.sh.getLsbD 0 = s.eng.sh.getLsbD 1 :=
  BitVec.getLsbD_ushiftRight s.eng.sh 1 0

/-- A bit of a write stays on the line until the clock is low (R125). -/
theorem engineStep_of_bit_pending {s : State} (hq : s.eng.bstate = .wBitFall) (hhigh : ¬ clkLevel s = .low) :
    engineStep s = s := by
  simp only [engineStep, hq, ruleWBitFall, if_neg hhigh]

/-- The eighth bit of a write is off the line: the parity cell (R125). -/
theorem engineStep_of_last_bit {s : State} (hq : s.eng.bstate = .wBitFall) (hlow : clkLevel s = .low)
    (hlast : s.eng.cnt = 7#3) :
    engineStep s = setBstate .wParRise (driveData (takeBitOff s).eng.par (setCnt 0#3 (takeBitOff s))) := by
  simp only [engineStep, hq, ruleWBitFall, if_pos hlow, if_pos hlast]

/-- An earlier bit of a write is off the line: the next bit (R125). -/
theorem engineStep_of_earlier_bit {s : State} (hq : s.eng.bstate = .wBitFall) (hlow : clkLevel s = .low)
    (hmore : s.eng.cnt ≠ 7#3) :
    engineStep s =
      setBstate .wBitRise (driveData (s.eng.sh.getLsbD 1) (setCnt (s.eng.cnt + 1#3) (takeBitOff s))) := by
  simp only [engineStep, hq, ruleWBitFall, if_pos hlow, if_neg hmore, takeBitOff_next_bit]

/-- Settles O32, by the clock and by whether the bit is the eighth. -/
theorem dataBitOfAWriteCompletes : Obligations.DataBitOfAWriteCompletes := by
  intro s hq
  have hstep : exec .wBitFall s = .next (engineStep s) := exec_busTransition_of_selected hq
  refine ⟨fun hhigh => ?_, fun hlow hlast => ?_, fun hlow hmore => ?_⟩
  · exact hstep.trans (congrArg _ (engineStep_of_bit_pending hq (clkLevel_low.not.2 hhigh)))
  · exact hstep.trans (congrArg _ (engineStep_of_last_bit hq (clkLevel_low.2 hlow) hlast))
  · exact hstep.trans (congrArg _ (engineStep_of_earlier_bit hq (clkLevel_low.2 hlow) hmore))

/-- Settles O33: the guard is the clock low. -/
theorem parityCellOfAWriteEnds : Obligations.ParityCellOfAWriteEnds :=
  fun _ hq => whenBus_of_wait ruleWParFall hq rfl clkLevel_low

/-- Settles O34: the guard takes both levels from the one sample. -/
theorem bothLinesHighCompleteAWrite : Obligations.BothLinesHighCompleteAWrite :=
  fun _ hq => whenBus_of_wait ruleWStopBothHigh hq rfl (and_congr clkLevel_high datLevel_high)

/-- After a write the device is held off: the start and the data cells moved the two bound lines only (R130, R131). -/
theorem heldOff_of_written {c d : LineId} (hcd : c ≠ d) (ms : List (LineId × DriveMode)) :
    HeldOff c d ms (setMode (setMode (modesAtStart ms c d) d .released) c .assertedLow) where
  clock := modeOf_setMode_same _ c _
  data := by rw [modeOf_setMode_other _ _ hcd.symm, modeOf_setMode_same]
  other l hc hd := by simp only [modesAtStart, modeOf_setMode_other _ _ hc, modeOf_setMode_other _ _ hd]

/-- A frame to the device is the steps of a queued write of its byte: requested by the frame on an idle engine that stands
alone, or queued before it (R72). -/
theorem exec_frameH2D_runs {b : Byte} {s : State} (hq : s.eng.bstate = .bIdle)
    (h : s.drv.dstate = .dUninit ∧ s.eng.busy = false ∨ s.eng.busy = true ∧ s.eng.op = .write ∧ s.eng.sh = b) :
    exec (.frameH2D b (parityOfByte b)) s =
      .next (runPhases writePhases { s with eng := queued .write b s.eng }) := by
  rcases h with ⟨hd, hfree⟩ | ⟨hb, ho, hsh⟩
  · have hn : writeQueued b s ≠ true := writeQueued_iff.not.2 (by simp [hfree])
    rw [exec_frameH2D_requests hn, byCaller_of_unattached _ hd, requestWrite_of_free b (by simp [hq]) hfree, andThen_next]
  · have hsame : queued .write b s.eng = s.eng := by rw [queued, ← hb, ← ho, ← hsh]
    rw [hsame]
    exact (if_pos rfl).trans (if_pos (writeQueued_iff.2 ⟨hq, hb, ho, hsh⟩))

/-- Settles O55: the frame is the whole of a queued write of `b`, which ends in the tag it began in. -/
theorem frameToTheDeviceCompletes : Obligations.FrameToTheDeviceCompletes := by
  intro s b x y hq hx hy hxy hstart
  have hheld := heldOff_of_written hxy s.modes
  have hrun := runPhases_writePhases (s := { s with eng := queued .write b s.eng }) hq rfl rfl hx hy hxy
  refine ⟨_, (exec_frameH2D_runs hq hstart).trans (congrArg _ hrun), ?_, hheld.clock, hheld.data, hheld.other⟩
  simp only [queued, ← hq]

end Sys2Proof.Machine

/-! PROOFS. The read protocol: each wait as the guarded rule of its row (R111, R140 to R149), and the frame from the device as
the whole of a read that awaits it (R150). -/

namespace Sys2Proof.Machine

/-- Settles O35: each guard is the elapsed window (R90). -/
theorem timedWindowsOfARead : Obligations.TimedWindowsOfARead :=
  fun _ =>
    ⟨fun hq => whenBus_of_wait ruleRFreeDelay hq rfl elapsed_iff,
      fun hq => whenBus_of_wait ruleRStartSettle hq rfl elapsed_iff⟩

/-- Settles O36: each guard is a level of the clock line. -/
theorem startCellOfARead : Obligations.StartCellOfARead :=
  fun _ =>
    ⟨fun hq => whenBus_of_wait ruleRStartLow hq rfl clkLevel_low,
      fun hq => whenBus_of_wait ruleRStartRise hq rfl clkLevel_high⟩

/-- A sampled bit is 1 exactly at the high level (R93). -/
theorem bitOfLevel_eq_decide (l : Level) : bitOfLevel l = decide (l = .high) := by
  cases l <;> rfl

theorem bitOfLevel_datLevel (s : State) : bitOfLevel (datLevel s) = decide (dataHigh s) :=
  (bitOfLevel_eq_decide (datLevel s)).trans (decide_eq_decide.2 datLevel_high)

/-- A bit of a read is not sampled until the clock is low (R144). -/
theorem engineStep_of_cell_pending {s : State} (hq : s.eng.bstate = .rBitLow) (hhigh : ¬ clkLevel s = .low) :
    engineStep s = s := by
  simp only [engineStep, hq, ruleRBitLow, if_neg hhigh]

/-- At clock low bit `cnt` of `rx` takes the level of the data line (R144). -/
theorem engineStep_of_cell_low {s : State} (hq : s.eng.bstate = .rBitLow) (hlow : clkLevel s = .low) :
    engineStep s = setBstate .rBitHigh (setRx (setBitAt s.eng.rx s.eng.cnt (decide (dataHigh s))) s) := by
  simp only [engineStep, hq, ruleRBitLow, if_pos hlow, bitOfLevel_datLevel]

/-- Settles O37, by the clock; that the other seven bits are kept is `getLsbD_setBitAt`. -/
theorem dataBitOfAReadIsSampledOnce : Obligations.DataBitOfAReadIsSampledOnce := by
  intro s hq
  have hstep : exec .rBitLow s = .next (engineStep s) := exec_busTransition_of_selected hq
  refine ⟨fun hhigh => ?_, fun hlow => ⟨setBitAt s.eng.rx s.eng.cnt (decide (dataHigh s)), ?_, ?_⟩⟩
  · exact hstep.trans (congrArg _ (engineStep_of_cell_pending hq (clkLevel_low.not.2 hhigh)))
  · exact hstep.trans (congrArg _ (engineStep_of_cell_low hq (clkLevel_low.2 hlow)))
  · exact getLsbD_setBitAt s.eng.rx s.eng.cnt (decide (dataHigh s))

/-- Settles O38: the guard is the clock high; whether the bit is the eighth is part of the rule. -/
theorem bitOfAReadIsCounted : Obligations.BitOfAReadIsCounted :=
  fun _ hq => whenBus_of_wait ruleRBitHigh hq rfl clkLevel_high

/-- Settles O39: each guard is a level of the clock line alone. -/
theorem parityAndStopCellsAreNotChecked : Obligations.ParityAndStopCellsAreNotChecked :=
  fun _ =>
    ⟨fun hq => whenBus_of_wait ruleRParLow hq rfl clkLevel_low,
      fun hq => whenBus_of_wait ruleRParHigh hq rfl clkLevel_high,
      fun hq => whenBus_of_wait ruleRStopLow hq rfl clkLevel_low⟩

/-- Settles O40: the guard is the clock high. -/
theorem finalClockHighCompletesARead : Obligations.FinalClockHighCompletesARead :=
  fun _ hq => whenBus_of_wait ruleRStopHigh hq rfl clkLevel_high

/-- Two different lines that the block has both released are free (R42). -/
theorem linesFree_of_released {c d : LineId} {s : State} (hc : s.eng.clockLine = some c) (hd : s.eng.dataLine = some d)
    (hcd : c ≠ d) (hmc : modeOf s.modes c = some .released) (hmd : modeOf s.modes d = some .released) : LinesFree s :=
  ⟨by simpa [hc, hd] using hcd, by simp [hc, modeAt, hmc], by simp [hd, modeAt, hmd]⟩

/-- The frame under a read that waits for its start bit completes the read (R150). -/
theorem runPhases_readPhases_waiting (start : Bool) (b : Byte) (p stop : Bool) {s : State}
    (hq : s.eng.bstate = .rFreeDelay ∨ s.eng.bstate = .rStartLow) (hf : LinesFree s) :
    runPhases (readPhases start b p stop) s =
      afterRead b { now := s.env.now + 51#32 + 1#32 + 6#32 + 1#32 + 20#32, devC := false, devD := !stop }
        (s.env.now + 51#32 + 1#32) (setModeAt s.modes s.eng.clockLine .assertedLow) s := by
  rw [readPhases_eq, runPhases_append, runPhases_readHead_waiting start hq hf]
  exact runPhases_readCells b p stop rfl rfl rfl ⟨hf.different, hf.clock, hf.data⟩

/-- The frame completes the read that awaits it, whatever its start, parity and stop cells (R150). -/
theorem runPhases_readPhases_awaited (start : Bool) (b : Byte) (p stop : Bool) {c d : LineId} {s : State}
    (h : AwaitsFrame c d s) :
    ∃ e t ms, HeldOff c d s.modes ms ∧ runPhases (readPhases start b p stop) s = afterRead b e t ms s := by
  obtain ⟨hc, hd, hcd, hb, ho, hq | ⟨hq, hmc, hmd⟩⟩ := h
  · exact ⟨_, _, _, heldOff_of_dispatched hcd s.modes, runPhases_readPhases start b p stop hq hb ho hc hd hcd⟩
  · have hrun := runPhases_readPhases_waiting start b p stop hq (linesFree_of_released hc hd hcd hmc hmd)
    rw [hc] at hrun
    exact ⟨_, _, _, heldOff_of_released hcd hmd, hrun⟩

/-- A frame from the device under a read that awaits it is the steps of that read, then its byte taken (R72). -/
theorem exec_frameD2H_of_awaited {start p stop : Bool} {b : Byte} {s : State} (h : frameAwaited s = true) :
    exec (.frameD2H start b p stop) s =
      .next (setResult (.byte (runPhases (readPhases start b p stop) s).eng.rx)
        (runPhases (readPhases start b p stop) s)) := by
  simp only [exec, execFrameD2H, if_pos h, andThen_next]

/-- A frame from the device is the steps of a queued read and its byte taken: requested by the frame on an idle engine that
stands alone, or under way before it (R72). -/
theorem exec_frameD2H_runs {start p stop : Bool} {b : Byte} {s v : State}
    (h : s.eng.bstate = .bIdle ∧ s.drv.dstate = .dUninit ∧ s.eng.busy = false ∨ frameAwaited s = true)
    (hrun : runPhases (readPhases start b p stop) { s with eng := queued .read s.eng.sh s.eng } = v) :
    exec (.frameD2H start b p stop) s = .next (setResult (.byte v.eng.rx) v) := by
  subst hrun
  rcases h with ⟨hq, hd, hfree⟩ | h
  · have hn : frameAwaited s ≠ true := frameAwaited_iff.not.2 (by simp [hfree])
    rw [exec_frameD2H_requests hn, byCaller_of_unattached _ hd, requestRead_of_free (by simp [hq]) hfree, andThen_next]
  · obtain ⟨-, hb, ho⟩ := frameAwaited_iff.1 h
    have hsame : queued .read s.eng.sh s.eng = s.eng := by rw [queued, ← hb, ← ho]
    rw [hsame, exec_frameD2H_of_awaited h]

/-- Settles O56: the frame is the rest of a read queued at the latest by the frame itself, and the read ends with `b`. -/
theorem frameFromTheDeviceIsReceived : Obligations.FrameFromTheDeviceIsReceived := by
  intro s start b p stop x y hx hy hxy hstart
  have hbegins : s.eng.bstate = .bIdle ∧ s.drv.dstate = .dUninit ∧ s.eng.busy = false ∨ frameAwaited s = true := by
    rw [frameAwaited_iff]
    tauto
  have hawaits : AwaitsFrame x y { s with eng := queued .read s.eng.sh s.eng } :=
    ⟨hx, hy, hxy, rfl, rfl, by simp only [queued]; tauto⟩
  obtain ⟨e, t, ms, hheld, hrun⟩ := runPhases_readPhases_awaited start b p stop hawaits
  exact ⟨_, exec_frameD2H_runs hbegins hrun, rfl, hheld.clock, hheld.data, hheld.other⟩

end Sys2Proof.Machine

/-! PROOFS. The operations of the driver (R160 to R163), and the transitions of its sequence that take no byte
(R111, R162, R164 to R179, R190, R191, R197). -/

namespace Sys2Proof.Machine

theorem whenDrv_of_selected {q : DrvState} {s : State} (rule : State → Answer) (h : s.drv.dstate = q) :
    whenDrv q rule s = rule s :=
  if_pos h

/-- The row of the present state is the driver half of one `ADVANCE` (R161). -/
theorem exec_drvTransition_of_selected {q : DrvState} {s : State} (h : s.drv.dstate = q) :
    exec q.transition s = driverStep s :=
  (exec_drvTransition q s).trans (whenDrv_of_selected driverStep h)

/-- Settles O42: the state between the two halves is the engine's step, which leaves the driver's tag and the sample. -/
theorem advanceIsEngineThenDriver : Obligations.AdvanceIsEngineThenDriver := by
  intro s
  have hdriver : exec s.drv.dstate.transition (engineStep s) = driverStep (engineStep s) :=
    exec_drvTransition_of_selected (congrArg Driver.dstate (engineStep_drv s))
  exact ⟨engineStep s, exec_busTransition_of_selected rfl, engineStep_drv s, engineStep_env s, hdriver.symm⟩

/-- A wait for an operation does nothing while one is pending (R111). -/
theorem whenDrv_whenIdle_of_busy {q : DrvState} {s : State} (act : State → Answer) (hq : s.drv.dstate = q)
    (hbusy : s.eng.busy = true) : whenDrv q (whenIdle act) s = .next s :=
  (whenDrv_of_selected (whenIdle act) hq).trans (if_pos hbusy)

/-- A wait for an operation acts once none is pending (R111). -/
theorem whenDrv_whenIdle_of_free {q : DrvState} {s : State} (act : State → Answer) (hq : s.drv.dstate = q)
    (hfree : s.eng.busy = false) : whenDrv q (whenIdle act) s = act s :=
  (whenDrv_of_selected (whenIdle act) hq).trans (if_neg (by simp [hfree]))

/-- Settles O46: each of the ten rows is a wait for the pending operation that ends with the read. -/
theorem driverIssuesTheNextRead : Obligations.DriverIssuesTheNextRead := by
  intro row hrow s hq
  simp only [List.mem_cons, List.not_mem_nil, or_false] at hrow
  rcases hrow with rfl | rfl | rfl | rfl | rfl | rfl | rfl | rfl | rfl | rfl
  all_goals
    exact ⟨whenDrv_whenIdle_of_busy (issueRead _) hq,
      fun hfree hbound => (whenDrv_whenIdle_of_free (issueRead _) hq hfree).trans (issueRead_idle hbound hfree)⟩

/-- Settles O47: each of the five rows is a wait for the pending read that ends with the write of its byte. -/
theorem driverIssuesTheNextWrite : Obligations.DriverIssuesTheNextWrite := by
  intro row hrow s hq
  simp only [List.mem_cons, List.not_mem_nil, or_false] at hrow
  rcases hrow with rfl | rfl | rfl | rfl | rfl
  all_goals
    exact ⟨whenDrv_whenIdle_of_busy (issueWrite _ _) hq,
      fun hfree hbound => (whenDrv_whenIdle_of_free (issueWrite _ _) hq hfree).trans (issueWrite_idle hbound hfree)⟩

/-- A pair that can be bound leaves the engine in `B_IDLE` (R100). -/
theorem assignLines_of_valid {c d : LineRef} {s : State} (h : lineValid s.platform c d = true) :
    assignLines c d s =
      { s with
        eng := { Engine.powerOn with bstate := .bIdle, clockLine := c, dataLine := d }
        modes := setModeAt (setModeAt s.modes c .released) d .released } :=
  if_pos h

/-- A pair that cannot be bound leaves the engine at its power-on values (R101). -/
theorem assignLines_of_invalid {c d : LineRef} {s : State} (h : lineValid s.platform c d = false) :
    assignLines c d s = { s with eng := Engine.powerOn } :=
  if_neg (by simp [h])

/-- `ATTACH` of a pair that is bound starts the initialisation (R160). -/
theorem exec_attach_of_bound {c d : LineRef} {s : State} (h : (assignLines c d s).eng.bstate ≠ .bUninit) :
    exec (.attach c d) s = .next (setDstate .dAttachSettle (stampDriver (assignLines c d s))) :=
  if_neg h

/-- `ATTACH` of a pair that is not bound leaves the driver uninitialised (R160). -/
theorem exec_attach_of_unbound {c d : LineRef} {s : State} (h : (assignLines c d s).eng.bstate = .bUninit) :
    exec (.attach c d) s = .next (setDstate .dUninit (assignLines c d s)) :=
  if_pos h

/-- Settles O41: the driver follows the engine's binding. -/
theorem attachRestartsTheSequence : Obligations.AttachRestartsTheSequence := by
  intro s c d
  refine ⟨fun hv => ?_, fun hv => ?_⟩
  · rw [exec_attach_of_bound (by simp [assignLines_of_valid hv]), assignLines_of_valid hv]
    rfl
  · rw [exec_attach_of_unbound (by rw [assignLines_of_invalid hv]; rfl), assignLines_of_invalid hv]
    rfl

/-- Settles O43. -/
theorem positionReturnsBothComponents : Obligations.PositionReturnsBothComponents :=
  fun _ => rfl

/-- Settles O45. -/
theorem unattachedDriverDoesNothing : Obligations.UnattachedDriverDoesNothing :=
  fun _ hq => whenDrv_of_selected ruleDUninit hq

/-- The row of a timed wait, with a line bound and no operation pending: nothing until its window has elapsed, then the
write of its byte (R90, R111). -/
theorem whenDrv_of_timedWrite {q q' : DrvState} {s : State} {b : Byte} {interval : Micros} (rule : State → Answer)
    (hq : s.drv.dstate = q)
    (hrule : rule s = if elapsed interval s.drv.dt s.env.now then issueWrite b q' s else .next s)
    (hbound : s.eng.bstate ≠ .bUninit) (hfree : s.eng.busy = false) :
    whenDrv q rule s = .next (if interval.toNat < (s.env.now - s.drv.dt).toNat then
      { s with eng := queued .write b s.eng, drv := { s.drv with dstate := q' } } else s) := by
  rw [whenDrv_of_selected rule hq, hrule, issueWrite_idle hbound hfree, ← apply_ite Host.Outcome.next]
  exact congrArg _ (if_congr elapsed_iff rfl rfl)

/-- Settles O48: the guard of each of the three is the elapsed window (R90). -/
theorem timedWaitsOfTheDriver : Obligations.TimedWaitsOfTheDriver :=
  fun _ hbound hfree =>
    ⟨fun hq => whenDrv_of_timedWrite ruleDAttachSettle hq rfl hbound hfree,
      fun hq => whenDrv_of_timedWrite ruleDInitSettle hq rfl hbound hfree,
      fun hq => whenDrv_of_timedWrite ruleDPollWait hq rfl hbound hfree⟩

/-- Settles O49, by whether the read of the acknowledgement is still pending. -/
theorem lastAcknowledgementStartsTheSettle : Obligations.LastAcknowledgementStartsTheSettle := by
  intro s hq
  cases hbusy : s.eng.busy with
  | true => exact whenDrv_whenIdle_of_busy _ hq hbusy
  | false => exact whenDrv_whenIdle_of_free _ hq hbusy

end Sys2Proof.Machine

/-! PROOFS. The polling loop: the bytes of a report (R192 to R196), and the idle invocation between two samples (R197,
R259). -/

namespace Sys2Proof.Machine

/-- With the engine idle and nothing queued, `ADVANCE` is the driver's transition alone (R109, R161). -/
theorem exec_advance_of_idle_free {q : DrvState} {s : State} (hidle : s.eng.bstate = .bIdle)
    (hfree : s.eng.busy = false) (hq : s.drv.dstate = q) : exec .advance s = exec q.transition s :=
  calc exec .advance s
    _ = driverStep (engineStep s) := rfl
    _ = driverStep s := by rw [engineStep_of_idle_free hidle hfree]
    _ = exec q.transition s := (exec_drvTransition_of_selected hq).symm

/-- Settles O44: in a timed wait the invariant has the engine idle and bound, and the driver's guard is still false. -/
theorem idleAdvanceChangesNothing : Obligations.IdleAdvanceChangesNothing := by
  intro s hinv hq hwithin
  obtain ⟨hfree, hidle⟩ := hinv.driver.idle (by rw [hq]; rfl)
  have hbound : s.eng.bstate ≠ .bUninit := by simp [hidle]
  obtain ⟨-, -, hwait⟩ := timedWaitsOfTheDriver s hbound hfree
  calc exec .advance s
    _ = exec .dPollWait s := exec_advance_of_idle_free hidle hfree hq
    _ = .next s := by rw [hwait hq, if_neg (Nat.not_lt.2 hwithin)]

/-- The row of a wait for a byte of the report that another byte follows: nothing while the read is pending, then the
byte is stored and the next read queued. Where the byte is stored is open (R192, R193). -/
theorem whenDrv_of_byteTaken {q q' : DrvState} {s : State} (store : Byte → State → State) (hq : s.drv.dstate = q)
    (hstore : (store s.eng.rx s).eng = s.eng) (hbound : s.eng.bstate ≠ .bUninit) :
    whenDrv q (whenIdle fun u => issueRead q' (store u.eng.rx u)) s =
      .next (if s.eng.busy then s else setDstate q' (setOp .read (setBusy true (store s.eng.rx s)))) := by
  cases hbusy : s.eng.busy with
  | true => exact whenDrv_whenIdle_of_busy _ hq hbusy
  | false =>
    rw [whenDrv_whenIdle_of_free _ hq hbusy, issueRead_idle (by rwa [hstore]) (by rwa [hstore])]
    rfl

/-- Settles O50: the status byte and the X byte differ in where they are stored. -/
theorem statusAndXBytesAreTaken : Obligations.StatusAndXBytesAreTaken :=
  fun _ hbound =>
    ⟨fun hq => whenDrv_of_byteTaken setStatus hq rfl hbound, fun hq => whenDrv_of_byteTaken setRawx hq rfl hbound⟩

/-- Settles O51, by whether the read of the Y byte is still pending; once it is not, the decode reads the byte stored in
the same transition, and no guard of it looks at the overflow bits. -/
theorem yByteCompletesTheSample : Obligations.YByteCompletesTheSample := by
  intro s hq
  refine ⟨whenDrv_whenIdle_of_busy _ hq, fun hfree => ?_⟩
  calc exec .dPollY s
    _ = .next (setDstate .dPollWait (stampDriver (decodeReportHeld (setRawy s.eng.rx s)))) :=
      whenDrv_whenIdle_of_free _ hq hfree
    _ = _ := rfl

end Sys2Proof.Machine

/-! PROOFS. The step between invocations (R222). -/

namespace Sys2Proof.Machine

/-- Settles O7: the step looks at the list of calls before anything else, and its branch for the empty list answers the
state it was given. -/
theorem noInvocationNoChange : Obligations.NoInvocationNoChange := by
  intro s hcalls
  unfold step
  rw [hcalls]

end Sys2Proof.Machine

/-! PROOFS. The operations of the engine from outside while a driver is attached (R62, R253, U13). -/

namespace Sys2Proof.Machine

/-- Settles O25: the four operations that write the engine pass the gate on the caller, which is shut while a driver is
attached; the two that only read it have no gate. -/
theorem attachedDriverOwnsTheEngine : Obligations.AttachedDriverOwnsTheEngine := by
  intro s c d b hattached
  refine ⟨?assign, ?reqw, ?reqr, ?step, isBusyReturnsBusy s, takeReturnsTheReceiveByte s⟩
  case assign => exact byCaller_of_attached (fun u => .next (assignLines c d u)) hattached
  case reqw => exact byCaller_of_attached (requestWrite b) hattached
  case reqr => exact byCaller_of_attached requestRead hattached
  case step => exact byCaller_of_attached (fun u => .next (engineStep u)) hattached

end Sys2Proof.Machine
